-- ==== Sys2Proof/Word.lean ====
section
/-! DEFINITION. The one word type of the block: every access, address and register byte is 8 bits, unsigned (R9, R41). -/

namespace Sys2Proof

/-- A byte: 8 bits, bit 0 the least significant (R8, R9). -/
abbrev Byte := BitVec 8

end Sys2Proof
end

