-- ==== Sys2Proof/Syntax.lean ====
section
/-! DEFINITION. The names of the block (Devices, modes), the three interface events the host delivers, and the operations
those events perform: one constructor of `Instr` per mnemonic of spec/opcode_table.json. -/

namespace Sys2Proof

/-- The three Devices (R3): A radio-style, B sensor-style, C passthrough text. -/
inductive DeviceId where
  | A
  | B
  | C
  deriving DecidableEq, Repr

/-- A Device's decoded mode: "one of {Write, Read, Ignore}", no other value is legal (R25). -/
inductive Mode where
  | ignore
  | read
  | write
  deriving DecidableEq, Repr

/-- The interface events (R60, R61).  The set is closed. -/
inductive Event where
  /-- a chip-select line changed level; `asserted`: it went to logic low (R62) -/
  | csEdge (lineId : Byte) (asserted : Bool)
  /-- the firmware wrote `data` to the shared data register -/
  | drWrite (data : Byte)
  /-- the firmware read the shared data register -/
  | drRead
  deriving DecidableEq, Repr

/-- The three event kinds: the column `format` of spec/opcode_table.json. -/
inductive EventKind where
  | csEdge
  | drWrite
  | drRead
  deriving DecidableEq, Repr

/-- The operations of spec/opcode_table.json.  A write operation carries the whole byte of its event, since the backing
cell takes it whole (R91); `rdStatus` and `rdData` carry the Device they read, `d = active` (R95, R96). -/
inductive Instr where
  /-- CS_ASSERT (R80) -/
  | csAssert (d : DeviceId)
  /-- CS_DEASSERT (R81) -/
  | csDeassert (d : DeviceId)
  /-- CS_UNKNOWN (R82) -/
  | csUnknown (lineId : Byte) (asserted : Bool)
  /-- WR_NOSEL (R92) -/
  | wrNosel (b : Byte)
  /-- A_RREG_CMD (R105) -/
  | aRregCmd (b : Byte)
  /-- A_WREG_CMD (R106) -/
  | aWregCmd (b : Byte)
  /-- A_IGN_CMD_LO (R107, opcodes 0x40 to 0x7F) -/
  | aIgnCmdLo (b : Byte)
  /-- A_IGN_CMD_HI (R107, opcodes 0x80 to 0xFF) -/
  | aIgnCmdHi (b : Byte)
  /-- A_DATA_WR (R108) -/
  | aDataWr (b : Byte)
  /-- A_DATA_DISCARD (R109) -/
  | aDataDiscard (b : Byte)
  /-- B_RREG_CMD (R115) -/
  | bRregCmd (b : Byte)
  /-- B_WREG_CMD (R116) -/
  | bWregCmd (b : Byte)
  /-- B_DATA_WR (R117) -/
  | bDataWr (b : Byte)
  /-- B_DATA_DISCARD (R118) -/
  | bDataDiscard (b : Byte)
  /-- C_CHAR (R125) -/
  | cChar (b : Byte)
  /-- RD_FALLBACK (R97, R98) -/
  | rdFallback
  /-- RD_STATUS (R95) -/
  | rdStatus (d : DeviceId)
  /-- RD_DATA (R96) -/
  | rdData (d : DeviceId)
  deriving DecidableEq, Repr

/-- An operation's mnemonic in spec/opcode_table.json, letter for letter. -/
def Instr.mnemonic : Instr → String
  | .csAssert _ => "CS_ASSERT"
  | .csDeassert _ => "CS_DEASSERT"
  | .csUnknown _ _ => "CS_UNKNOWN"
  | .wrNosel _ => "WR_NOSEL"
  | .aRregCmd _ => "A_RREG_CMD"
  | .aWregCmd _ => "A_WREG_CMD"
  | .aIgnCmdLo _ => "A_IGN_CMD_LO"
  | .aIgnCmdHi _ => "A_IGN_CMD_HI"
  | .aDataWr _ => "A_DATA_WR"
  | .aDataDiscard _ => "A_DATA_DISCARD"
  | .bRregCmd _ => "B_RREG_CMD"
  | .bWregCmd _ => "B_WREG_CMD"
  | .bDataWr _ => "B_DATA_WR"
  | .bDataDiscard _ => "B_DATA_DISCARD"
  | .cChar _ => "C_CHAR"
  | .rdFallback => "RD_FALLBACK"
  | .rdStatus _ => "RD_STATUS"
  | .rdData _ => "RD_DATA"

end Sys2Proof
end

