-- ==== Sys2Proof/WellFormed.lean ====
section
/-! DEFINITION. Which operations are well formed: the operand range the table's mask and match give each row. -/

namespace Sys2Proof

/-- The operand checks, one per row of the table whose mask fixes a bit of the operand. -/
def Instr.wellFormed : Instr → Bool
  | .csAssert _ => true
  | .csDeassert _ => true
  | .csUnknown lineId _ => decide (3 ≤ lineId.toNat)                      -- R82: 3 to 255
  | .wrNosel _ => true
  | .aRregCmd b => decide (b.toNat < 0x20)                                -- R105: 0x00 to 0x1F
  | .aWregCmd b => decide (0x20 ≤ b.toNat) && decide (b.toNat < 0x40)     -- R106: 0x20 to 0x3F
  | .aIgnCmdLo b => decide (0x40 ≤ b.toNat) && decide (b.toNat < 0x80)    -- R107: 0x40 to 0x7F
  | .aIgnCmdHi b => decide (0x80 ≤ b.toNat)                               -- R107: 0x80 to 0xFF
  | .aDataWr _ => true
  | .aDataDiscard _ => true
  | .bRregCmd b => decide (0x80 ≤ b.toNat)                                -- R115: 0x80 to 0xFF
  | .bWregCmd b => decide (b.toNat < 0x80)                                -- R116: 0x00 to 0x7F
  | .bDataWr _ => true
  | .bDataDiscard _ => true
  | .cChar _ => true
  | .rdFallback => true
  | .rdStatus _ => true
  | .rdData _ => true

end Sys2Proof
end

