-- ==== Sys2Proof/Decode.lean ====
section
/-! DEFINITION. The decoder in the spec's two layers (30_encoding.md): from an event's bits to the event (R60, R61), and from
the event and the state it finds to the operation it performs (R63 to R71).  After it the encoder, written from the same
tables, and the opcode table's 30 rows as data. -/

namespace Sys2Proof

/-! ## First layer: bits to event -/

/-- Why a string of bytes is no event. -/
inductive DecodeError where
  /-- a two-byte word with a bit above bit 8 set: a CS_EDGE has 9 bits (R61) -/
  | reservedEdgeBits
  /-- more than two bytes: no event is that wide (R61) -/
  | noSuchWidth
  deriving DecidableEq, Repr

/-- The event a word of bytes stands for, the least significant byte first.  The table's three formats have the widths 9, 8
and 0 bits (R61), so the width names the kind.  The packing is notation only (D19); laying it out in bytes is a DESIGN CHOICE
(log 9), safe. -/
def decodeEvent : List Byte → Except DecodeError Event
  | [] => .ok .drRead
  | [data] => .ok (.drWrite data)
  | [lineId, hi] =>
    if hi = 1#8 then .ok (.csEdge lineId true)
    else if hi = 0#8 then .ok (.csEdge lineId false)
    else .error .reservedEdgeBits
  | _ :: _ :: _ :: _ => .error .noSuchWidth

/-! ## Second layer: event and context to operation -/

/-- What the dispatch tables read of the state while a Device is active (R70, R71): the Device and its `apd`, `sas`, `mode`. -/
structure Selection where
  dev  : DeviceId
  apd  : Bool
  sas  : Bool
  mode : Mode
  deriving DecidableEq, Repr

/-- The context an event is decoded in: none while no Device is active. -/
abbrev Context := Option Selection

/-- `device_for` (R63): 0 to A, 1 to B, 2 to C, every other id to no Device.  The numbering is the spec's choice (D3, log 6). -/
def deviceFor (lineId : Byte) : Option DeviceId :=
  if lineId = 0x00#8 then some .A
  else if lineId = 0x01#8 then some .B
  else if lineId = 0x02#8 then some .C
  else none

/-- A chip-select edge's operation (R80, R81, R82). -/
def dispatchEdge (lineId : Byte) (asserted : Bool) : Instr :=
  match deviceFor lineId with
  | some d => if asserted then .csAssert d else .csDeassert d
  | none => .csUnknown lineId asserted

/-- Family A's opcode byte (R64): the source's ranges. -/
def decodeRadioOpcode (b : Byte) : Instr :=
  if b.toNat < 0x20 then .aRregCmd b
  else if b.toNat < 0x40 then .aWregCmd b
  else if b.toNat < 0x80 then .aIgnCmdLo b
  else .aIgnCmdHi b

/-- Family B's opcode byte (R66): bit 7 selects the direction. -/
def decodeSensorOpcode (b : Byte) : Instr :=
  if b.getLsbD 7 then .bRregCmd b else .bWregCmd b

/-- The write dispatch (R70). -/
def dispatchWrite (c : Context) (b : Byte) : Instr :=
  match c with
  | none => .wrNosel b
  | some sel =>
    match sel.dev with
    | .A =>
      if sel.apd then
        match sel.mode with
        | .write => .aDataWr b
        | .read => .aDataDiscard b
        | .ignore => .aDataDiscard b
      else decodeRadioOpcode b
    | .B =>
      if sel.apd then
        match sel.mode with
        | .write => .bDataWr b
        | .read => .bDataDiscard b
        | .ignore => .bDataDiscard b
      else decodeSensorOpcode b
    | .C => .cChar b

/-- The read dispatch (R71, R94).  Mode Read before the address phase falls back (R98; decision D8, log 12). -/
def dispatchRead (c : Context) : Instr :=
  match c with
  | none => .rdFallback
  | some sel =>
    match sel.mode with
    | .read =>
      if sel.apd then
        if sel.sas then .rdData sel.dev else .rdStatus sel.dev
      else .rdFallback
    | .write => .rdFallback
    | .ignore => .rdFallback

/-- The operation an event performs in a context: total, since no event is illegal in any state (R73, R130). -/
def dispatch (c : Context) : Event → Instr
  | .csEdge lineId asserted => dispatchEdge lineId asserted
  | .drWrite b => dispatchWrite c b
  | .drRead => dispatchRead c

/-- The whole decoder: the operation that an event's bytes perform in a context, or why they are no event. -/
def decode (c : Context) (bytes : List Byte) : Except DecodeError Instr :=
  match decodeEvent bytes with
  | .ok e => .ok (dispatch c e)
  | .error r => .error r

/-- The bytes of an `nbits`-wide table word, the least significant first. -/
def tableBytes (nbits w : Nat) : List Byte :=
  (List.range ((nbits + 7) / 8)).map fun k => BitVec.ofNat 8 (w >>> (8 * k))

/-- The event a table word stands for, if it is one. -/
def eventOfTableWord (nbits w : Nat) : Option Event :=
  match decodeEvent (tableBytes nbits w) with
  | .ok e => some e
  | .error _ => none

/-- The operation a table word performs in a context. -/
def decodeTableWordIn (c : Context) (nbits w : Nat) : Option Instr :=
  (eventOfTableWord nbits w).map (dispatch c)

/-- The operation a table word performs in the context right after reset, where no Device is active (R151).  A word alone
does not name a row of the table: the context does (R61; log 1). -/
def decodeTableWord (nbits w : Nat) : Option Instr :=
  decodeTableWordIn none nbits w

/-! ## Encoder -/

/-- The id of a Device's line (R63). -/
def lineIdOf : DeviceId → Byte
  | .A => 0x00#8
  | .B => 0x01#8
  | .C => 0x02#8

/-- The event that performs an operation in its context: the rules' "Encoding" items. -/
def encodeEvent : Instr → Event
  | .csAssert d => .csEdge (lineIdOf d) true
  | .csDeassert d => .csEdge (lineIdOf d) false
  | .csUnknown lineId asserted => .csEdge lineId asserted
  | .wrNosel b => .drWrite b
  | .aRregCmd b => .drWrite b
  | .aWregCmd b => .drWrite b
  | .aIgnCmdLo b => .drWrite b
  | .aIgnCmdHi b => .drWrite b
  | .aDataWr b => .drWrite b
  | .aDataDiscard b => .drWrite b
  | .bRregCmd b => .drWrite b
  | .bWregCmd b => .drWrite b
  | .bDataWr b => .drWrite b
  | .bDataDiscard b => .drWrite b
  | .cChar b => .drWrite b
  | .rdFallback => .drRead
  | .rdStatus _ => .drRead
  | .rdData _ => .drRead

/-- An event's bytes (R61): a CS_EDGE is {asserted, line_id}, a DR_WRITE its data byte, a DR_READ nothing. -/
def Event.bytes : Event → List Byte
  | .csEdge lineId asserted => [lineId, if asserted then 1#8 else 0#8]
  | .drWrite data => [data]
  | .drRead => []

/-- The bytes of an operation's event. -/
def encode (i : Instr) : List Byte :=
  (encodeEvent i).bytes

/-- The context an operation is performed in: the table's `context` column, which is the "Operands" item of its rule. -/
def Instr.inContext (i : Instr) (c : Context) : Bool :=
  match i, c with
  | .csAssert _, _ => true
  | .csDeassert _, _ => true
  | .csUnknown _ _, _ => true
  | .wrNosel _, c => c.isNone
  | .aRregCmd _, some sel => sel.dev == .A && !sel.apd
  | .aWregCmd _, some sel => sel.dev == .A && !sel.apd
  | .aIgnCmdLo _, some sel => sel.dev == .A && !sel.apd
  | .aIgnCmdHi _, some sel => sel.dev == .A && !sel.apd
  | .aDataWr _, some sel => sel.dev == .A && sel.apd && sel.mode == .write
  | .aDataDiscard _, some sel => sel.dev == .A && sel.apd && (sel.mode == .read || sel.mode == .ignore)
  | .bRregCmd _, some sel => sel.dev == .B && !sel.apd
  | .bWregCmd _, some sel => sel.dev == .B && !sel.apd
  | .bDataWr _, some sel => sel.dev == .B && sel.apd && sel.mode == .write
  | .bDataDiscard _, some sel => sel.dev == .B && sel.apd && (sel.mode == .read || sel.mode == .ignore)
  | .cChar _, some sel => sel.dev == .C
  | .rdFallback, some sel => sel.mode == .write || sel.mode == .ignore || (sel.mode == .read && !sel.apd)
  | .rdStatus d, some sel => sel.dev == d && sel.mode == .read && sel.apd && !sel.sas
  | .rdData d, some sel => sel.dev == d && sel.mode == .read && sel.apd && sel.sas
  | .rdFallback, none => true
  | .aRregCmd _, none => false
  | .aWregCmd _, none => false
  | .aIgnCmdLo _, none => false
  | .aIgnCmdHi _, none => false
  | .aDataWr _, none => false
  | .aDataDiscard _, none => false
  | .bRregCmd _, none => false
  | .bWregCmd _, none => false
  | .bDataWr _, none => false
  | .bDataDiscard _, none => false
  | .cChar _, none => false
  | .rdStatus _, none => false
  | .rdData _, none => false

/-! ## The opcode table as data

Copied row by row from spec/opcode_table.json (mnemonic, format, mask, match and `fields.context`), apart from the decoder
above, so that the two can be held against each other: "Exactly one row matches each event in each state" (R61). -/

/-- A row's context: which values of `active` it admits and, while a Device is active, which values of that Device's flags
and mode.  A column the table leaves out admits every value. -/
structure ContextPattern where
  active : List (Option DeviceId)
  apd    : List Bool := [true, false]
  sas    : List Bool := [true, false]
  mode   : List Mode := [.write, .read, .ignore]
  deriving DecidableEq, Repr

/-- A row of the opcode table. -/
structure TableRow where
  mnemonic : String
  format   : EventKind
  mask     : BitVec 9
  bits     : BitVec 9
  context  : ContextPattern
  deriving DecidableEq, Repr

/-- An event's kind: the table's `format`. -/
def Event.kind : Event → EventKind
  | .csEdge _ _ => .csEdge
  | .drWrite _ => .drWrite
  | .drRead => .drRead

/-- An event's packed word (R61): `cs_word = {asserted, line_id}`, the data byte, or no bits. -/
def Event.word : Event → BitVec 9
  | .csEdge lineId asserted => BitVec.ofBool asserted ++ lineId
  | .drWrite data => data.setWidth 9
  | .drRead => 0#9

/-- Whether a context holds for a pattern. -/
def ContextPattern.admits (p : ContextPattern) : Context → Bool
  | none => p.active.contains none
  | some sel => p.active.contains (some sel.dev) && p.apd.contains sel.apd && p.sas.contains sel.sas && p.mode.contains sel.mode

/-- A row matches an event when the kind is its format, the masked word is its match and its context holds (R61). -/
def TableRow.matchesEvent (r : TableRow) (c : Context) (e : Event) : Bool :=
  r.format == e.kind && (e.word &&& r.mask == r.bits) && r.context.admits c

/-- The empty context column: the row applies in every state. -/
def ContextPattern.any : ContextPattern := { active := [none, some .A, some .B, some .C] }

/-- The rows of format CS_EDGE. -/
def edgeRows : List TableRow :=
  [ ⟨"CS_ASSERT",   .csEdge, 0x1FF#9, 0x100#9, .any⟩,
    ⟨"CS_ASSERT",   .csEdge, 0x1FF#9, 0x101#9, .any⟩,
    ⟨"CS_ASSERT",   .csEdge, 0x1FF#9, 0x102#9, .any⟩,
    ⟨"CS_DEASSERT", .csEdge, 0x1FF#9, 0x000#9, .any⟩,
    ⟨"CS_DEASSERT", .csEdge, 0x1FF#9, 0x001#9, .any⟩,
    ⟨"CS_DEASSERT", .csEdge, 0x1FF#9, 0x002#9, .any⟩,
    ⟨"CS_UNKNOWN",  .csEdge, 0x0FF#9, 0x003#9, .any⟩,
    ⟨"CS_UNKNOWN",  .csEdge, 0x0FC#9, 0x004#9, .any⟩,
    ⟨"CS_UNKNOWN",  .csEdge, 0x0F8#9, 0x008#9, .any⟩,
    ⟨"CS_UNKNOWN",  .csEdge, 0x0F0#9, 0x010#9, .any⟩,
    ⟨"CS_UNKNOWN",  .csEdge, 0x0E0#9, 0x020#9, .any⟩,
    ⟨"CS_UNKNOWN",  .csEdge, 0x0C0#9, 0x040#9, .any⟩,
    ⟨"CS_UNKNOWN",  .csEdge, 0x080#9, 0x080#9, .any⟩ ]

/-- The rows of format DR_WRITE. -/
def writeRows : List TableRow :=
  [ ⟨"WR_NOSEL",       .drWrite, 0x00#9, 0x00#9, { active := [none] }⟩,
    ⟨"A_RREG_CMD",     .drWrite, 0xE0#9, 0x00#9, { active := [some .A], apd := [false] }⟩,
    ⟨"A_WREG_CMD",     .drWrite, 0xE0#9, 0x20#9, { active := [some .A], apd := [false] }⟩,
    ⟨"A_IGN_CMD_LO",   .drWrite, 0xC0#9, 0x40#9, { active := [some .A], apd := [false] }⟩,
    ⟨"A_IGN_CMD_HI",   .drWrite, 0x80#9, 0x80#9, { active := [some .A], apd := [false] }⟩,
    ⟨"A_DATA_WR",      .drWrite, 0x00#9, 0x00#9, { active := [some .A], apd := [true], mode := [.write] }⟩,
    ⟨"A_DATA_DISCARD", .drWrite, 0x00#9, 0x00#9, { active := [some .A], apd := [true], mode := [.read, .ignore] }⟩,
    ⟨"B_RREG_CMD",     .drWrite, 0x80#9, 0x80#9, { active := [some .B], apd := [false] }⟩,
    ⟨"B_WREG_CMD",     .drWrite, 0x80#9, 0x00#9, { active := [some .B], apd := [false] }⟩,
    ⟨"B_DATA_WR",      .drWrite, 0x00#9, 0x00#9, { active := [some .B], apd := [true], mode := [.write] }⟩,
    ⟨"B_DATA_DISCARD", .drWrite, 0x00#9, 0x00#9, { active := [some .B], apd := [true], mode := [.read, .ignore] }⟩,
    ⟨"C_CHAR",         .drWrite, 0x00#9, 0x00#9, { active := [some .C] }⟩ ]

/-- The rows of format DR_READ. -/
def readRows : List TableRow :=
  [ ⟨"RD_FALLBACK", .drRead, 0x0#9, 0x0#9, { active := [none] }⟩,
    ⟨"RD_STATUS",   .drRead, 0x0#9, 0x0#9, { active := [some .A, some .B, some .C], mode := [.read], apd := [true], sas := [false] }⟩,
    ⟨"RD_DATA",     .drRead, 0x0#9, 0x0#9, { active := [some .A, some .B, some .C], mode := [.read], apd := [true], sas := [true] }⟩,
    ⟨"RD_FALLBACK", .drRead, 0x0#9, 0x0#9, { active := [some .A, some .B, some .C], mode := [.read], apd := [false] }⟩,
    ⟨"RD_FALLBACK", .drRead, 0x0#9, 0x0#9, { active := [some .A, some .B, some .C], mode := [.write, .ignore] }⟩ ]

/-- The 30 rows of spec/opcode_table.json, in its order. -/
def opcodeTable : List TableRow := edgeRows ++ writeRows ++ readRows

end Sys2Proof
end

