-- ==== Sys2Proof/Config.lean ====
section
/-! DEFINITION. The parameters of the block (00_scope.md section 3): the values the spec fixes, the value the model names
where the spec leaves one open, and, as constants with no body, the two parameters that belong to the platform. -/

namespace Sys2Proof

/-- `LATCH_WRITE_POLICY` (R91): which data-register writes update the backing register cell. -/
inductive LatchWritePolicy where
  /-- every write does: the spec's value (decision D5) -/
  | always
  /-- only a write with no Device active does: the alternative the spec keeps -/
  | unselectedOnly
  deriving DecidableEq, Repr

namespace Config

/-- `MEM_INIT` (R21): what every register-file byte the seed does not set holds at reset, and so what an unlisted address
of a `Memory` reads as.  DESIGN CHOICE (the spec's own, D10; log 5), unsafe. -/
def memInit : Byte := 0x00#8

/-- `MEM_SIZE` (R21): bytes in a register file. -/
def memSize : Nat := 256

/-- `STATUS_BYTE` (R95): the synthetic first read value. -/
def statusByte : Byte := 0x00#8

/-- `LATCH_INIT` (R33): the backing cell at reset.  The spec leaves it OPEN; 0x00 is what its test vectors use.
DESIGN CHOICE (log 3), unsafe; `State.resetWith` takes any byte. -/
def latchInit : Byte := 0x00#8

/-- `LATCH_WRITE_POLICY` at reset (R91, D5; log 2). -/
def latchWritePolicy : LatchWritePolicy := .always

/-- A pin of the host microcontroller: its port and its bit in the port. -/
structure Pin where
  port : Nat
  bit  : Nat
  deriving DecidableEq, Repr, Inhabited

/-- `DATA_REG_ADDR` (R45): the host I/O address of the shared data register.  OPEN (D4), so a constant with no body. -/
opaque dataRegAddr : Nat

/-- `CS_PIN_BINDING` (R63): which pin drives each Device's line.  OPEN (D3), so a constant with no body. -/
opaque csPinBinding : DeviceId → Pin

end Config

end Sys2Proof
end

