-- ==== Sys2Proof/Machine/Memory.lean ====
section
/-! DEFINITION. A register file: 256 bytes under 8-bit addresses (R21, R40), held as a list of (address, byte) cells in one
canonical form. -/

namespace Sys2Proof.Machine

/-- A register file's contents.  An address that is not listed reads as `Config.memInit`. -/
abbrev Memory := List Host.Cell

/-- The byte at a cell key. -/
def Memory.get : Memory → Nat → Byte
  | [], _ => Config.memInit
  | (k, x) :: rest, a => if a = k then x else Memory.get rest a

/-- The cells of every other key. -/
def Memory.erase : Memory → Nat → Memory
  | [], _ => []
  | (k, x) :: rest, a => if a = k then Memory.erase rest a else (k, x) :: Memory.erase rest a

/-- A cell put before the first one with a greater key. -/
def Memory.insert : Memory → Nat → Byte → Memory
  | [], a, v => [(a, v)]
  | (k, x) :: rest, a, v => if a < k then (a, v) :: (k, x) :: rest else (k, x) :: Memory.insert rest a v

/-- Put a byte at a cell key: the key's old cell goes, and the new one is listed only if it holds another byte than what an
unlisted address reads as. -/
def Memory.put (m : Memory) (a : Nat) (v : Byte) : Memory :=
  if v = Config.memInit then Memory.erase m a else Memory.insert (Memory.erase m a) a v

/-- `MemRead` on one register file (R11): the 8-bit address is a direct index (R49). -/
def Memory.read (m : Memory) (a : Byte) : Byte :=
  Memory.get m a.toNat

/-- `MemWrite` on one register file (R11). -/
def Memory.write (m : Memory) (a v : Byte) : Memory :=
  Memory.put m a.toNat v

/-- Every key is `lo` or above and the keys rise strictly. -/
def Memory.risingFrom : Nat → Memory → Bool
  | _, [] => true
  | lo, (k, _) :: rest => decide (lo ≤ k) && Memory.risingFrom (k + 1) rest

/-- The canonical form: keys strictly rising, every key an address of the register file, no cell equal to what an unlisted
address reads as. -/
def Memory.wf (m : Memory) : Bool :=
  Memory.risingFrom 0 m && m.all fun cell => decide (cell.1 < Config.memSize) && cell.2 != Config.memInit

/-- Write a run of bytes, the first at `a` and each next one at the next higher address (R42). -/
def Memory.writeRun : Memory → Byte → List Byte → Memory
  | m, _, [] => m
  | m, a, v :: rest => Memory.writeRun (Memory.write m a v) (a + 1#8) rest

/-- The calibration seed of Device B (R152, first table): each run's offset and its bytes, the first at the offset. -/
def calibrationSeed : List (Byte × List Byte) :=
  [ (0x88#8, [0x80#8, 0x6F#8, 0x77#8, 0x68#8, 0x32#8, 0x00#8, 0xDA#8, 0x93#8, 0xFE#8, 0xD6#8, 0xD0#8, 0x0B#8, 0x8B#8,
              0x25#8, 0x1C#8, 0xFF#8, 0xF9#8, 0xFF#8, 0xAC#8, 0x26#8, 0x0A#8, 0xD8#8, 0xBD#8, 0x10#8, 0x00#8, 0x4B#8]),
    (0xE1#8, [0x78#8, 0x01#8, 0x00#8, 0x11#8, 0x2F#8, 0x03#8, 0x1E#8]),
    (0xF7#8, [0x48#8, 0x0A#8, 0x00#8, 0x80#8, 0x2D#8, 0x80#8, 0x58#8, 0x31#8]),
    (0xD0#8, [0x60#8]),
    (0xF3#8, [0x00#8]) ]

/-- The register file the calibration seed leaves (R152): every run written into a file with nothing listed. -/
def Memory.seeded : Memory :=
  calibrationSeed.foldl (fun m run => Memory.writeRun m run.1 run.2) []

end Sys2Proof.Machine
end

