-- ==== Sys2Proof/Machine/Device.lean ====
section
/-! DEFINITION. A Device: its register file and its transaction state (R20), and how startup creates it. -/

namespace Sys2Proof.Machine

/-- A Device (R20): its register file and its transaction state. -/
structure Device where
  /-- the register file (R21) -/
  mem       : Memory
  /-- `read_addr` (R22) -/
  readAddr  : Byte
  /-- `write_addr` (R22) -/
  writeAddr : Byte
  /-- `apd`, the source's `address_phase_done` (R23) -/
  apd       : Bool
  /-- `sas`, the source's `status_already_sent` (R24) -/
  sas       : Bool
  /-- the decoded mode (R25) -/
  mode      : Mode
  deriving DecidableEq, Repr

/-- A Device as startup creates it (R151 step 1): flags clear, mode Ignore, both addresses 0x00 (R22 to R25; the spec's own
decision D9, log 4), over the given register file. -/
def Device.created (mem : Memory) : Device :=
  { mem := mem, readAddr := 0x00#8, writeAddr := 0x00#8, apd := false, sas := false, mode := .ignore }

end Sys2Proof.Machine
end

