-- ==== Sys2Proof/Machine/State.lean ====
section
/-! DEFINITION. The whole state of the block (R36), the reasons a step could stop, and the state after reset (R151). -/

namespace Sys2Proof.Machine

/-- The faults of the block: none.  "The block raises no exception and records no fault" (R130), so the type has no
constructor, nothing raises one, and a claim that no step faults rests on R130 alone.  Safe. -/
inductive Fault where
  deriving DecidableEq, Repr

/-- The refusals. -/
inductive Refusal where
  /-- Raised only by an arm of `exec` whose operation has no meaning yet.  Safe: the run stops.  No arm raises it. -/
  | notModelled (mnemonic : String)
  deriving DecidableEq, Repr

/-- The state of the block (R36), with the model's own three fields at the end. -/
structure State where
  /-- the Bus Selector's selection (R31) -/
  active : Option DeviceId
  /-- the radio-style Device (R3, R20) -/
  devA   : Device
  /-- the sensor-style Device -/
  devB   : Device
  /-- the passthrough text Device -/
  devC   : Device
  /-- the backing register cell (R33) -/
  latch  : Byte
  /-- the output character stream, oldest first (R34) -/
  sink   : List Byte
  /-- `LATCH_WRITE_POLICY` (R91): a parameter that no step writes.  DESIGN CHOICE (log 2), safe -/
  latchWritePolicy : LatchWritePolicy
  /-- the events the host has issued and the block has not yet taken, oldest first (R50).  DESIGN CHOICE (log 7), safe -/
  events  : List Event
  /-- the byte the latest event returned to the host, none where it returned none (R36).  DESIGN CHOICE (log 8), safe -/
  readOut : Option Byte
  deriving DecidableEq, Repr

/-- Reset (R151) for any `LATCH_INIT` (OPEN, D7) and either `LATCH_WRITE_POLICY` (R91): the Devices created, the seed written
into Device B, nothing selected (D9), an empty sink (D13). -/
def State.resetWith (latchInit : Byte) (policy : LatchWritePolicy) : State :=
  { active := none
    devA := Device.created []
    devB := Device.created Memory.seeded
    devC := Device.created []
    latch := latchInit
    sink := []
    latchWritePolicy := policy
    events := []
    readOut := none }

/-- The state after reset, with the parameters at the values Config names.  `latch` is a DESIGN CHOICE (log 3), unsafe. -/
def State.reset : State :=
  State.resetWith Config.latchInit Config.latchWritePolicy

end Sys2Proof.Machine
end

