-- ==== Sys2Proof/Machine/Flags.lean ====
section
/-! DEFINITION. The flags of the block: `apd` and `sas` of each Device, and no other (R30).  No arithmetic result sets one. -/

namespace Sys2Proof.Machine

/-- What an assertion does to its Device (R80): both flags cleared, nothing else. -/
def Device.clearFlags (dv : Device) : Device :=
  { dv with apd := false, sas := false }

/-- What every opcode does (R105, R106, R107, R115, R116): the address phase is done.  `sas` is not written (R24). -/
def Device.setApd (dv : Device) : Device :=
  { dv with apd := true }

/-- What the status read does (R95). -/
def Device.setSas (dv : Device) : Device :=
  { dv with sas := true }

end Sys2Proof.Machine
end

