-- ==== Sys2Proof/Machine/Operands.lean ====
section
/-! DEFINITION. The operand forms: how an opcode byte becomes an address (R65, R67), the post-increment (R47), and the
2-bit codes of `mode` and `active` that a hardware build would use (R25, R31). -/

namespace Sys2Proof.Machine

/-- `inc8(v)`: `(v + 1) mod 256` (R9, R47). -/
def inc8 (v : Byte) : Byte :=
  v + 1#8

/-- Family A's Read address: the opcode itself (R65, R105). -/
def radioReadAddr (b : Byte) : Byte :=
  b

/-- Family A's Write address: `opcode & 0x1F` (R65, R106). -/
def radioWriteAddr (b : Byte) : Byte :=
  b &&& 0x1F#8

/-- Family B's Read address: the whole opcode, bit 7 retained (R67, R115). -/
def sensorReadAddr (b : Byte) : Byte :=
  b

/-- Family B's Write address: `opcode | 0x80` (R67, R116). -/
def sensorWriteAddr (b : Byte) : Byte :=
  b ||| 0x80#8

/-- The 2-bit code of a mode (R25, D14).  0b11 is no mode's code. -/
def modeCode : Mode → BitVec 2
  | .ignore => 0b00#2
  | .read => 0b01#2
  | .write => 0b10#2

/-- The 2-bit code of `active` (R31, D14). -/
def activeCode : Option DeviceId → BitVec 2
  | none => 0b00#2
  | some .A => 0b01#2
  | some .B => 0b10#2
  | some .C => 0b11#2

end Sys2Proof.Machine
end

