-- ==== Sys2Proof/Machine/Ops.lean ====
section
/-! DEFINITION. The named operations over the state that the meanings share: the pseudocode primitives of R11, the latch
update of R91, the opcode and data steps the two register-file families have in common.

There is no operation for taking an exception or returning from one: the block has no exception, interrupt, trap entry or
trap return (R130, R132, R134). -/

namespace Sys2Proof.Machine

/-! ## Reading and writing the state -/

/-- `dev[d]`. -/
def State.dev (s : State) : DeviceId → Device
  | .A => s.devA
  | .B => s.devB
  | .C => s.devC

/-- `dev[d] <- dv`. -/
def State.setDev (s : State) (d : DeviceId) (dv : Device) : State :=
  match d with
  | .A => { s with devA := dv }
  | .B => { s with devB := dv }
  | .C => { s with devC := dv }

/-- `active <- a` (R31). -/
def State.setActive (s : State) (a : Option DeviceId) : State :=
  { s with active := a }

/-- `latch <- b` (R33). -/
def State.setLatch (s : State) (b : Byte) : State :=
  { s with latch := b }

/-- `MemRead(d, a, 1)` (R11). -/
def State.memRead (s : State) (d : DeviceId) (a : Byte) : Byte :=
  (s.dev d).mem.read a

/-- `MemWrite(d, a, 1, v)` (R11). -/
def State.memWrite (s : State) (d : DeviceId) (a v : Byte) : State :=
  s.setDev d { s.dev d with mem := (s.dev d).mem.write a v }

/-- `emit(v)` (R11): one byte at the end of the sink. -/
def State.emit (s : State) (v : Byte) : State :=
  { s with sink := s.sink ++ [v] }

/-- `return v` (R11): drive v as the result of the current read event. -/
def State.returnByte (s : State) (v : Byte) : State :=
  { s with readOut := some v }

/-- The context the dispatch tables read (R70, R71). -/
def State.context (s : State) : Context :=
  s.active.map fun d =>
    { dev := d, apd := (s.dev d).apd, sas := (s.dev d).sas, mode := (s.dev d).mode }

/-! ## Shared steps of the operations -/

/-- The latch update of a data-register write (R90, R91), done before the decoder runs. -/
def State.latchWrite (s : State) (b : Byte) : State :=
  if s.latchWritePolicy = .always ∨ s.active = none then s.setLatch b else s

/-- A Read opcode (R105, R115): mode Read, the read address, the address phase done. -/
def Device.openRead (dv : Device) (a : Byte) : Device :=
  Device.setApd { dv with mode := .read, readAddr := a }

/-- A Write opcode (R106, R116): mode Write, the write address, the address phase done. -/
def Device.openWrite (dv : Device) (a : Byte) : Device :=
  Device.setApd { dv with mode := .write, writeAddr := a }

/-- An Ignore opcode (R107): mode Ignore, the address phase done. -/
def Device.openIgnore (dv : Device) : Device :=
  Device.setApd { dv with mode := .ignore }

/-- Post-increment of the read address (R96). -/
def Device.advanceRead (dv : Device) : Device :=
  { dv with readAddr := inc8 dv.readAddr }

/-- Post-increment of the write address (R108, R117). -/
def Device.advanceWrite (dv : Device) : Device :=
  { dv with writeAddr := inc8 dv.writeAddr }

/-- Apply a change to one Device. -/
def State.updateDev (s : State) (d : DeviceId) (f : Device → Device) : State :=
  s.setDev d (f (s.dev d))

/-- Store a data byte at the write address, then post-increment it (R108, R117). -/
def State.storeData (s : State) (d : DeviceId) (b : Byte) : State :=
  (s.memWrite d (s.dev d).writeAddr b).updateDev d Device.advanceWrite

/-- Return the register-file byte at the read address, then post-increment it (R96). -/
def State.loadData (s : State) (d : DeviceId) : State :=
  (s.updateDev d Device.advanceRead).returnByte (s.memRead d (s.dev d).readAddr)

end Sys2Proof.Machine
end

