-- ==== Sys2Proof/Machine/BusSelector.lean ====
section
/-! DEFINITION. The Bus Selector's operations (40_bus_selector.md): what a chip-select edge does.  None returns a value (R86). -/

namespace Sys2Proof.Machine

/-- CS_ASSERT (R80, R83): select the Device and restart its transaction, whatever was active; last edge wins (R84). -/
def execCsAssert (d : DeviceId) (s : State) : Host.Outcome State Fault Refusal :=
  .next ((s.setActive (some d)).updateDev d Device.clearFlags)

/-- CS_DEASSERT (R81): end the selection if the line's Device is the active one. -/
def execCsDeassert (d : DeviceId) (s : State) : Host.Outcome State Fault Refusal :=
  .next (if s.active = some d then s.setActive none else s)

/-- CS_UNKNOWN (R82): no state changes. -/
def execCsUnknown (_lineId : Byte) (_asserted : Bool) (s : State) : Host.Outcome State Fault Refusal :=
  .next s

end Sys2Proof.Machine
end

