-- ==== Sys2Proof/Machine/DecoderPassthrough.lean ====
section
/-! DEFINITION. Decoder family C, the passthrough text Device (44_decoder_passthrough.md).  The latch update of R91 comes
first (R70). -/

namespace Sys2Proof.Machine

/-- C_CHAR (R125, R126): the byte goes to the sink verbatim; no Device field is written. -/
def execCChar (b : Byte) (s : State) : Host.Outcome State Fault Refusal :=
  .next ((s.latchWrite b).emit b)

end Sys2Proof.Machine
end

