-- ==== Sys2Proof/Machine/DecoderRadio.lean ====
section
/-! DEFINITION. Decoder family A, the radio-style Device (42_decoder_radio.md).  In every operation the latch update of R91
comes first (R70). -/

namespace Sys2Proof.Machine

/-- A_RREG_CMD (R105). -/
def execARregCmd (b : Byte) (s : State) : Host.Outcome State Fault Refusal :=
  .next ((s.latchWrite b).updateDev .A fun dv => dv.openRead (radioReadAddr b))

/-- A_WREG_CMD (R106). -/
def execAWregCmd (b : Byte) (s : State) : Host.Outcome State Fault Refusal :=
  .next ((s.latchWrite b).updateDev .A fun dv => dv.openWrite (radioWriteAddr b))

/-- A_IGN_CMD_LO (R107). -/
def execAIgnCmdLo (b : Byte) (s : State) : Host.Outcome State Fault Refusal :=
  .next ((s.latchWrite b).updateDev .A Device.openIgnore)

/-- A_IGN_CMD_HI (R107). -/
def execAIgnCmdHi (b : Byte) (s : State) : Host.Outcome State Fault Refusal :=
  .next ((s.latchWrite b).updateDev .A Device.openIgnore)

/-- A_DATA_WR (R108, R110): no 5-bit wrap, the address wraps at 256 only. -/
def execADataWr (b : Byte) (s : State) : Host.Outcome State Fault Refusal :=
  .next ((s.latchWrite b).storeData .A b)

/-- A_DATA_DISCARD (R109): no Device field changes. -/
def execADataDiscard (b : Byte) (s : State) : Host.Outcome State Fault Refusal :=
  .next (s.latchWrite b)

end Sys2Proof.Machine
end

