-- ==== Sys2Proof/Machine/DecoderSensor.lean ====
section
/-! DEFINITION. Decoder family B, the sensor-style Device (43_decoder_sensor.md).  In every operation the latch update of R91
comes first (R70).  The high bit of both addresses is kept bit-exact (R119). -/

namespace Sys2Proof.Machine

/-- B_RREG_CMD (R115). -/
def execBRregCmd (b : Byte) (s : State) : Host.Outcome State Fault Refusal :=
  .next ((s.latchWrite b).updateDev .B fun dv => dv.openRead (sensorReadAddr b))

/-- B_WREG_CMD (R116). -/
def execBWregCmd (b : Byte) (s : State) : Host.Outcome State Fault Refusal :=
  .next ((s.latchWrite b).updateDev .B fun dv => dv.openWrite (sensorWriteAddr b))

/-- B_DATA_WR (R117). -/
def execBDataWr (b : Byte) (s : State) : Host.Outcome State Fault Refusal :=
  .next ((s.latchWrite b).storeData .B b)

/-- B_DATA_DISCARD (R118; the spec's own decision D15, log 13): no Device field changes. -/
def execBDataDiscard (b : Byte) (s : State) : Host.Outcome State Fault Refusal :=
  .next (s.latchWrite b)

end Sys2Proof.Machine
end

