-- ==== Sys2Proof/Machine/RegisterIntercept.lean ====
section
/-! DEFINITION. The Register Intercept's own operations (41_register_intercept.md): a write with no Device active, and the
three outcomes of a read. -/

namespace Sys2Proof.Machine

/-- WR_NOSEL (R92): the backing cell takes the byte under both policies of R91; no Device field and no sink output changes. -/
def execWrNosel (b : Byte) (s : State) : Host.Outcome State Fault Refusal :=
  .next (s.setLatch b)

/-- RD_FALLBACK (R97, R98): return the backing cell and change nothing. -/
def execRdFallback (s : State) : Host.Outcome State Fault Refusal :=
  .next (s.returnByte s.latch)

/-- RD_STATUS (R95): the status byte, once per transaction; nothing advances. -/
def execRdStatus (d : DeviceId) (s : State) : Host.Outcome State Fault Refusal :=
  .next ((s.updateDev d Device.setSas).returnByte Config.statusByte)

/-- RD_DATA (R96): the register-file byte at the read address, which is post-incremented. -/
def execRdData (d : DeviceId) (s : State) : Host.Outcome State Fault Refusal :=
  .next (s.loadData d)

end Sys2Proof.Machine
end

