-- ==== Sys2Proof/Machine/Dispatch.lean ====
section
/-! DEFINITION. One arm per operation of the opcode table. -/

namespace Sys2Proof.Machine

def exec (i : Instr) (s : State) : Host.Outcome State Fault Refusal :=
  match i with
  -- Bus Selector
  | .csAssert d => Sys2Proof.Machine.execCsAssert d s
  | .csDeassert d => Sys2Proof.Machine.execCsDeassert d s
  | .csUnknown lineId asserted => Sys2Proof.Machine.execCsUnknown lineId asserted s
  -- Register Intercept, write with no Device active
  | .wrNosel b => Sys2Proof.Machine.execWrNosel b s
  -- Decoder family A
  | .aRregCmd b => Sys2Proof.Machine.execARregCmd b s
  | .aWregCmd b => Sys2Proof.Machine.execAWregCmd b s
  | .aIgnCmdLo b => Sys2Proof.Machine.execAIgnCmdLo b s
  | .aIgnCmdHi b => Sys2Proof.Machine.execAIgnCmdHi b s
  | .aDataWr b => Sys2Proof.Machine.execADataWr b s
  | .aDataDiscard b => Sys2Proof.Machine.execADataDiscard b s
  -- Decoder family B
  | .bRregCmd b => Sys2Proof.Machine.execBRregCmd b s
  | .bWregCmd b => Sys2Proof.Machine.execBWregCmd b s
  | .bDataWr b => Sys2Proof.Machine.execBDataWr b s
  | .bDataDiscard b => Sys2Proof.Machine.execBDataDiscard b s
  -- Decoder family C
  | .cChar b => Sys2Proof.Machine.execCChar b s
  -- Register Intercept, reads
  | .rdFallback => Sys2Proof.Machine.execRdFallback s
  | .rdStatus d => Sys2Proof.Machine.execRdStatus d s
  | .rdData d => Sys2Proof.Machine.execRdData d s

end Sys2Proof.Machine
end

