-- ==== Sys2Proof/Machine/Fetch.lean ====
section
/-! DEFINITION. How an event reaches the step: the host's queue of events not yet taken (R36, R50, R60). -/

namespace Sys2Proof.Machine

/-- The event the next step takes: the oldest one delivered (R50). -/
def State.nextEvent? (s : State) : Option Event :=
  s.events.head?

/-- The state an event is performed in: the event is off the queue, and nothing has been returned yet, so that an event
which returns no value (R86, R99) leaves none (log 8). -/
def State.takeEvent (s : State) : State :=
  { s with events := s.events.tail, readOut := none }

/-- The host delivers events, in their order, after the ones already delivered (R50, R133). -/
def State.deliver (s : State) (es : List Event) : State :=
  { s with events := s.events ++ es }

/-- The state in which a table word's event is the next one taken.  A word that is no event (R60: the set is closed) cannot
be delivered, and leaves the state as it is. -/
def State.presentWord (s : State) (nbits w : Nat) : State :=
  match eventOfTableWord nbits w with
  | some e => { s with events := e :: s.events }
  | none => s

end Sys2Proof.Machine
end

