-- ==== Sys2Proof/Machine/Step.lean ====
section
/-! DEFINITION. The block's one step function (R36): take the oldest event delivered, decode it in the state's context, do
its operation.  A step with no event changes nothing (R60). -/

namespace Sys2Proof.Machine

def step (s : State) : Host.Outcome State Fault Refusal :=
  match s.nextEvent? with
  | none => .next s
  | some e => exec (dispatch s.context e) s.takeEvent

/-- `s` with a table word's event as the next one its step takes (log 7).  The context stays: which row of the table the word
performs is the state's to say (R61; log 1). -/
def State.withFetchWord (s : State) (nbits w : Nat) : State :=
  s.presentWord nbits w

end Sys2Proof.Machine
end

