-- ==== Sys2Proof/Machine/Boundary.lean ====
section
/-! DEFINITION. The contract by which the host's pins and I/O accesses become events (R45, R62, R63, R141).  Making the
events is the host's job and outside the block (R5); no step reads this file. -/

namespace Sys2Proof.Machine

/-- A line's level change as an event (R62): logic low is asserted, logic high deasserted. -/
def edgeOfLevel (lineId : Byte) (levelHigh : Bool) : Event :=
  .csEdge lineId (!levelHigh)

/-- The Device whose line a pin drives, under the open binding (R63, R141). -/
def deviceOfPin (pin : Config.Pin) : Option DeviceId :=
  if Config.csPinBinding .A = pin then some .A
  else if Config.csPinBinding .B = pin then some .B
  else if Config.csPinBinding .C = pin then some .C
  else none

/-- A pin's level change as an event; a pin that drives no line makes none. -/
def eventOfPin (pin : Config.Pin) (levelHigh : Bool) : Option Event :=
  (deviceOfPin pin).map fun d => edgeOfLevel (lineIdOf d) levelHigh

/-- A host I/O write as an event: only the shared data register's address is intercepted (R45). -/
def eventOfIoWrite (addr : Nat) (data : Byte) : Option Event :=
  if addr = Config.dataRegAddr then some (.drWrite data) else none

/-- A host I/O read as an event (R45). -/
def eventOfIoRead (addr : Nat) : Option Event :=
  if addr = Config.dataRegAddr then some .drRead else none

end Sys2Proof.Machine
end

