-- ==== Sys2Proof/Machine/Pseudo.lean ====
section
/-! DEFINITION. The spec's notation for event programs (R74) and its pseudo-operations (R75), as events and lists of events.
They are the spec's shorthand (D19): no step reads this file. -/

namespace Sys2Proof.Machine

/-- `SEL d` (R74). -/
def evSel (d : DeviceId) : Event :=
  .csEdge (lineIdOf d) true

/-- `DESEL d` (R74). -/
def evDesel (d : DeviceId) : Event :=
  .csEdge (lineIdOf d) false

/-- `CS n, v` (R74). -/
def evCs (n : Byte) (v : Bool) : Event :=
  .csEdge n v

/-- `WR 0xNN` (R74). -/
def evWr (b : Byte) : Event :=
  .drWrite b

/-- `RD` (R74). -/
def evRd : Event :=
  .drRead

/-- `RREG_A r, n` (R75): r in 0x00 to 0x1F. -/
def rregA (r : Byte) (n : Nat) : List Event :=
  [evSel .A, evWr r, evRd] ++ List.replicate n evRd ++ [evDesel .A]

/-- `WREG_A r, b1..bn` (R75): r in 0x00 to 0x1F. -/
def wregA (r : Byte) (bs : List Byte) : List Event :=
  [evSel .A, evWr (0x20#8 ||| r)] ++ bs.map evWr ++ [evDesel .A]

/-- `RREG_B a, n` (R75): a in 0x80 to 0xFF. -/
def rregB (a : Byte) (n : Nat) : List Event :=
  [evSel .B, evWr a, evRd] ++ List.replicate n evRd ++ [evDesel .B]

/-- `WREG_B a, b1..bn` (R75): a in 0x80 to 0xFF. -/
def wregB (a : Byte) (bs : List Byte) : List Event :=
  [evSel .B, evWr (a &&& 0x7F#8)] ++ bs.map evWr ++ [evDesel .B]

/-- `PUTS_C "s"` (R75): each character is one byte. -/
def putsC (cs : List Byte) : List Event :=
  [evSel .C] ++ cs.map evWr ++ [evDesel .C]

end Sys2Proof.Machine
end

