-- ==== Sys2Proof/Safety.lean ====
section
/-! DEFINITION. The terms claims use: what a safe step is, the invariant of the block's states, when two states look the same
from the interface, and the bytes a run returns to the host. -/

namespace Sys2Proof.Machine

/-- A step that completes: neither a fault nor a refusal (R130). -/
def Completes (o : Host.Outcome State Fault Refusal) : Prop :=
  ∃ t, o = .next t

/-- The invariant of the block's states. -/
structure State.Inv (s : State) : Prop where
  /-- every register file is in canonical form -/
  memWf : ∀ d, (s.dev d).mem.wf = true
  /-- Device C's fields are never written but for flags an assertion clears (R126, R127), so all of them stay as created -/
  passthroughUntouched : s.dev .C = Device.created []
  /-- once Device B's address phase is done, its mode is Read or Write (R120) -/
  sensorNeverIgnores : (s.dev .B).apd = true → (s.dev .B).mode ≠ .ignore
  /-- a status byte is sent only within a Read transaction whose address phase is done (R24, R95) -/
  statusOnlyInRead : ∀ d, (s.dev d).sas = true → (s.dev d).apd = true ∧ (s.dev d).mode = .read

/-- What the interface can still show of the active Device's transaction (R29): before the address phase is done only
`sas`, which the assertion has cleared (R24, R80); then the mode, with `sas` and the read address in Read mode and the write
address in Write mode. -/
structure Device.SameTransaction (p q : Device) : Prop where
  apd : p.apd = q.apd
  fresh : p.apd = false → p.sas = q.sas
  mode : p.apd = true → p.mode = q.mode
  read : p.apd = true → p.mode = .read → p.sas = q.sas ∧ p.readAddr = q.readAddr
  write : p.apd = true → p.mode = .write → p.writeAddr = q.writeAddr

/-- Two states that the interface cannot tell apart (R29, R37): they differ at most in what Devices that are not active keep
of earlier transactions, and in the mode and the addresses of the active Device that its transaction does not use. -/
structure State.Indistinguishable (s t : State) : Prop where
  active : s.active = t.active
  mem : ∀ d, (s.dev d).mem = (t.dev d).mem
  latch : s.latch = t.latch
  sink : s.sink = t.sink
  policy : s.latchWritePolicy = t.latchWritePolicy
  events : s.events = t.events
  readOut : s.readOut = t.readOut
  transaction : ∀ d, s.active = some d → (s.dev d).SameTransaction (t.dev d)

/-- The bytes that the read events among the next `n` events return to the host, in order. -/
def readTrace : Nat → State → List Byte
  | 0, _ => []
  | n + 1, s =>
    match s.events, step s with
    | .drRead :: _, .next t => t.readOut.toList ++ readTrace n t
    | .drRead :: _, .fault _ => []
    | .drRead :: _, .refused _ => []
    | _, .next t => readTrace n t
    | _, .fault _ => []
    | _, .refused _ => []

end Sys2Proof.Machine
end

