-- ==== Sys2Proof/Certificates/Slice0/Obligations.lean ====
section
/-! DEFINITION. The statements for the provers.  Each docstring names the rules of spec/ it formalises; a clause that rests on a
decision of the spec's own (D<n>) or on a choice of the model says so and names the log entry.

Every statement about one operation holds in every state, also in states the operation's context rules out: the meaning is
the rule's pseudocode (log 10).  The latch clause of a data-register write is R90's and R91's, for both values of
`LATCH_WRITE_POLICY` (decision D5, log 2). -/

namespace Sys2Proof.Claims

open Sys2Proof.Machine

/-- The backing cell after a data-register write of `b` (R90, R91). -/
def latchAfter (s : State) (b : Byte) : Byte :=
  if s.latchWritePolicy = .always ∨ s.active = none then b else s.latch

/-- Every byte of every register file reads as before. -/
def SameBytes (s t : State) : Prop :=
  ∀ e x, t.memRead e x = s.memRead e x

/-- Every Device but `d` is as before. -/
def OthersKept (d : DeviceId) (s t : State) : Prop :=
  ∀ e, e ≠ d → t.dev e = s.dev e

/-- The parameter and the events not yet taken are as before. -/
def SameInputs (s t : State) : Prop :=
  t.latchWritePolicy = s.latchWritePolicy ∧ t.events = s.events

/-- What is outside the Devices is as before, but for the selection, the backing cell, the sink and the returned byte, which
are given. -/
def Outside (t s : State) (active : Option DeviceId) (latch : Byte) (sink : List Byte) (readOut : Option Byte) : Prop :=
  t.active = active ∧ t.latch = latch ∧ t.sink = sink ∧ t.readOut = readOut ∧ SameInputs s t

/-- The 5-bit register field of a family A opcode, zero-extended (R65). -/
def radioRegister (b : Byte) : Byte :=
  (b.extractLsb' 0 5).setWidth 8

/-- The block's bus after `k` steps from `s`, the events of `es` being all that the host has issued. -/
def afterEvents (s : State) (es : List Event) : Host.Outcome State Fault Refusal :=
  Host.Core.run Sys2Proof.core es.length { s with events := es }

/-- The seeded bytes of Device B, as R152's second table lists them: address and byte. -/
def seedBytes : List (Byte × Byte) :=
  [ (0x88#8, 0x80#8), (0x89#8, 0x6F#8), (0x8A#8, 0x77#8), (0x8B#8, 0x68#8), (0x8C#8, 0x32#8), (0x8D#8, 0x00#8),
    (0x8E#8, 0xDA#8), (0x8F#8, 0x93#8), (0x90#8, 0xFE#8), (0x91#8, 0xD6#8), (0x92#8, 0xD0#8), (0x93#8, 0x0B#8),
    (0x94#8, 0x8B#8), (0x95#8, 0x25#8), (0x96#8, 0x1C#8), (0x97#8, 0xFF#8), (0x98#8, 0xF9#8), (0x99#8, 0xFF#8) ] ++
  [ (0x9A#8, 0xAC#8), (0x9B#8, 0x26#8), (0x9C#8, 0x0A#8), (0x9D#8, 0xD8#8), (0x9E#8, 0xBD#8), (0x9F#8, 0x10#8),
    (0xA0#8, 0x00#8), (0xA1#8, 0x4B#8), (0xD0#8, 0x60#8), (0xE1#8, 0x78#8), (0xE2#8, 0x01#8), (0xE3#8, 0x00#8) ] ++
  [ (0xE4#8, 0x11#8), (0xE5#8, 0x2F#8), (0xE6#8, 0x03#8), (0xE7#8, 0x1E#8), (0xF3#8, 0x00#8), (0xF7#8, 0x48#8),
    (0xF8#8, 0x0A#8), (0xF9#8, 0x00#8), (0xFA#8, 0x80#8), (0xFB#8, 0x2D#8), (0xFC#8, 0x80#8), (0xFD#8, 0x58#8),
    (0xFE#8, 0x31#8) ]

end Sys2Proof.Claims

open Sys2Proof Sys2Proof.Machine Sys2Proof.Claims

/-! ## Encoding -/

/-- The round trip: in every context an operation is performed in, its event's bytes decode to it, operand and all.
From R61 and the "Encoding" items of the operation rules; the byte layout is the model's (log 9), the ids D3's (log 6). -/
def Obligations.DecodeOfEncodeGivesBackEveryOperation : Prop :=
  ∀ (i : Instr) (c : Context), i.wellFormed = true → i.inContext c = true → decode c (encode i) = .ok i

/-- "Exactly one row matches each event in each state" (R61), and the decoder, written from R63 to R71, picks that row of the
30 rows transcribed from spec/opcode_table.json.  The packing and the ids are the spec's own decisions D19 and D3 (log 9, 6). -/
def Obligations.EachEventMatchesExactlyTheRowTheDecoderPicks : Prop :=
  ∀ (c : Context) (e : Event),
    (opcodeTable.filter fun r => r.matchesEvent c e).map TableRow.mnemonic = [(dispatch c e).mnemonic]

/-- The other direction: what the decoder answers is well formed, is performed in that context, and is encoded in just the
bytes it was read from.  The byte layout is the model's (log 9). -/
def Obligations.DecodedOperationIsWellFormedInContextAndEncodesBack : Prop :=
  ∀ (c : Context) (bytes : List Byte) (i : Instr), decode c bytes = .ok i →
    i.wellFormed = true ∧ i.inContext c = true ∧ encode i = bytes

/-- A few words written out from R61 to R67: `CS_EDGE(1, asserted)` is the 9-bit word 1 0000 0001; opcodes 000 00101,
001 00101, 01 100001 and 1 1111111 of family A; opcodes 1 0001000 and 0 1110100 of family B.  No word of family C and no read is
among them.  The line ids are the spec's decision D3 (log 6), the byte layout is the model's (log 9); that 0x05 is a Read opcode
follows the spec's resolution C1 (DEDUCED, log 21). -/
def Obligations.WordsWrittenOutFromTheEncodingsDecode : Prop :=
  decodeTableWordIn none 9 0b100000001 = some (.csAssert .B) ∧
  decodeTableWordIn none 9 0b000000010 = some (.csDeassert .C) ∧
  decodeTableWordIn none 9 0b100000011 = some (.csUnknown 0b00000011#8 true) ∧
  decodeTableWordIn none 8 0b01000001 = some (.wrNosel 0x41#8) ∧
  decodeTableWordIn (some ⟨.A, false, false, .ignore⟩) 8 0b00000101 = some (.aRregCmd 0x05#8) ∧
  decodeTableWordIn (some ⟨.A, false, false, .ignore⟩) 8 0b00100101 = some (.aWregCmd 0x25#8) ∧
  decodeTableWordIn (some ⟨.A, false, false, .ignore⟩) 8 0b01100001 = some (.aIgnCmdLo 0x61#8) ∧
  decodeTableWordIn (some ⟨.A, false, false, .ignore⟩) 8 0b11111111 = some (.aIgnCmdHi 0xFF#8) ∧
  decodeTableWordIn (some ⟨.B, false, false, .ignore⟩) 8 0b10001000 = some (.bRregCmd 0x88#8) ∧
  decodeTableWordIn (some ⟨.B, false, false, .ignore⟩) 8 0b01110100 = some (.bWregCmd 0x74#8)

/-- Family A's ranges and its opcode bits 7 to 5 name the same operations (R64): 000 Read, 001 Write, 01x and 1xx Ignore. -/
def Obligations.RadioOpcodeRangesAgreeWithItsTopBits : Prop :=
  ∀ (b : Byte) (sas : Bool) (mode : Mode), dispatch (some ⟨.A, false, sas, mode⟩) (.drWrite b) =
    if b.extractLsb' 5 3 = 0b000#3 then .aRregCmd b
    else if b.extractLsb' 5 3 = 0b001#3 then .aWregCmd b
    else if b.extractLsb' 6 2 = 0b01#2 then .aIgnCmdLo b
    else .aIgnCmdHi b

/-! ## The step -/

/-- A step runs the decoded operation: the oldest event, decoded in the state's context, is performed in the state without
that event and with no byte returned yet (R36, R60; the queue and the returned byte are the model's, log 7 and 8). -/
def Obligations.StepPerformsTheDecodedOperation : Prop :=
  ∀ (s : State) (e : Event) (rest : List Event) (i : Instr), s.events = e :: rest → decode s.context e.bytes = .ok i →
    step s = exec i { s with events := rest, readOut := none }

/-- "A step with no event changes nothing" (R60, the spec's own decision D2, log 7). -/
def Obligations.StepWithNoEventChangesNothing : Prop :=
  ∀ s : State, s.events = [] → step s = .next s

/-- No exception and no fault: every event is defined in every state (R130). -/
def Obligations.EveryEventCompletesInEveryState : Prop :=
  ∀ (s : State) (e : Event), Completes (step { s with events := [e] }) ∧ Completes (exec (dispatch s.context e) s)

/-- Events take effect in the order the host delivers them, and none sees a later one (R50): what is delivered after the
event a step takes neither changes what the step does nor is lost.  R50 is marked as the spec's decision D26. -/
def Obligations.LaterEventsDoNotAffectAStep : Prop :=
  ∀ (s t : State) (later : List Event), s.events ≠ [] → step s = .next t →
    step (s.deliver later) = .next (t.deliver later) ∧ t.events = s.events.tail

/-! ## Bus Selector -/

/-- CS_ASSERT (R80): from every state the line's Device becomes active with both flags clear, nothing else changes, and the
next byte is decoded as a fresh opcode. -/
def Obligations.CsAssertSelectsTheDeviceAndClearsItsFlags : Prop :=
  ∀ (d : DeviceId) (s : State),
    (∀ (n : Byte) (c : Context), deviceFor n = some d → dispatch c (.csEdge n true) = .csAssert d) ∧
    ∃ t, exec (.csAssert d) s = .next t ∧ Outside t s (some d) s.latch s.sink s.readOut ∧
      (t.dev d).apd = false ∧ (t.dev d).sas = false ∧ (t.dev d).mode = (s.dev d).mode ∧
      (t.dev d).readAddr = (s.dev d).readAddr ∧ (t.dev d).writeAddr = (s.dev d).writeAddr ∧
      OthersKept d s t ∧ SameBytes s t ∧
      (d = .A → ∀ b, dispatch t.context (.drWrite b) = decodeRadioOpcode b) ∧
      (d = .B → ∀ b, dispatch t.context (.drWrite b) = decodeSensorOpcode b)

/-- CS_DEASSERT (R81): the selection ends if and only if the line's Device is the active one; nothing else changes. -/
def Obligations.CsDeassertEndsOnlyItsOwnSelection : Prop :=
  ∀ (d : DeviceId) (s : State),
    (∀ (n : Byte) (c : Context), deviceFor n = some d → dispatch c (.csEdge n false) = .csDeassert d) ∧
    (s.active = some d → ∃ t, exec (.csDeassert d) s = .next t ∧ Outside t s none s.latch s.sink s.readOut ∧
      (∀ e, t.dev e = s.dev e) ∧ SameBytes s t) ∧
    (s.active ≠ some d → exec (.csDeassert d) s = .next s)

/-- CS_UNKNOWN (R82): an edge of a line id from 3 to 255 changes nothing, whatever is active. -/
def Obligations.CsUnknownChangesNothing : Prop :=
  ∀ (n : Byte) (v : Bool) (c : Context) (s : State), 3 ≤ n.toNat →
    dispatch c (.csEdge n v) = .csUnknown n v ∧ exec (.csUnknown n v) s = .next s

/-- A chip-select edge writes only `active`, and on assertion the two flags of its Device, and returns no value (R86). -/
def Obligations.EdgesWriteOnlySelectionAndAssertedFlags : Prop :=
  ∀ (s : State) (n : Byte) (v : Bool) (rest : List Event), s.events = .csEdge n v :: rest →
    ∃ t, step s = .next t ∧ t.readOut = none ∧ t.latch = s.latch ∧ t.sink = s.sink ∧
      t.latchWritePolicy = s.latchWritePolicy ∧ SameBytes s t ∧
      (∀ e, (t.dev e).mode = (s.dev e).mode ∧ (t.dev e).readAddr = (s.dev e).readAddr ∧
        (t.dev e).writeAddr = (s.dev e).writeAddr) ∧
      (∀ e, ¬ (v = true ∧ deviceFor n = some e) → t.dev e = s.dev e)

/-- Overlapping selections (R85): with d active, another line's assertion takes the selection and leaves d's Device alone;
deasserting that line then selects nothing although line d was never deasserted, deasserting d does nothing.  That the last
assertion wins is the spec's own decision D11 (R84, log 17). -/
def Obligations.LastAssertedLineWinsAndNothingIsRestored : Prop :=
  ∀ (s : State) (d e : DeviceId), d ≠ e → s.active = some d →
    (∃ t, afterEvents s [evSel e] = .next t ∧ t.active = some e ∧ t.dev d = s.dev d) ∧
    (∃ t, afterEvents s [evSel e, evDesel e] = .next t ∧ t.active = none ∧ t.dev d = s.dev d) ∧
    (∃ t, afterEvents s [evSel e, evDesel d] = .next t ∧ t.active = some e ∧ t.dev d = s.dev d) ∧
    (∃ t, afterEvents s [evSel e, evDesel e, evDesel d] = .next t ∧ t.active = none ∧ t.dev d = s.dev d)

/-- Reselection discards (R164): after a Device's line is deasserted and asserted again, whatever its transaction was, the next
byte is a fresh opcode: the address phase is done with it, and it is stored nowhere. -/
def Obligations.ByteAfterReselectionIsAFreshOpcode : Prop :=
  ∀ (s : State) (d : DeviceId) (b : Byte), d ≠ .C →
    ∃ t, afterEvents s [evDesel d, evSel d, evWr b] = .next t ∧ t.active = some d ∧ (t.dev d).apd = true ∧
      (t.dev d).sas = false ∧ SameBytes s t ∧
      (d = .A → (t.dev d).mode = if b.toNat < 0x20 then .read else if b.toNat < 0x40 then .write else .ignore) ∧
      (d = .B → (t.dev d).mode = if 0x80 ≤ b.toNat then .read else .write)

/-! ## Register Intercept -/

/-- WR_NOSEL (R92): with no Device active a write sets the backing cell, under both policies, and changes nothing else. -/
def Obligations.WriteWithNoDeviceSetsOnlyTheBackingCell : Prop :=
  ∀ (b : Byte) (s : State),
    dispatch none (.drWrite b) = .wrNosel b ∧
    ∃ t, exec (.wrNosel b) s = .next t ∧ Outside t s s.active b s.sink s.readOut ∧ (∀ e, t.dev e = s.dev e) ∧ SameBytes s t

/-- RD_STATUS (R95): the first read of a Read transaction returns 0x00 and sets `sas`; nothing advances; while the transaction
lasts the next read is a data read. -/
def Obligations.FirstReadReturnsTheStatusByte : Prop :=
  ∀ (d : DeviceId) (s : State),
    dispatch (some ⟨d, true, false, .read⟩) .drRead = .rdStatus d ∧
    ∃ t, exec (.rdStatus d) s = .next t ∧ Outside t s s.active s.latch s.sink (some 0x00#8) ∧
      t.dev d = { s.dev d with sas := true } ∧ OthersKept d s t ∧ SameBytes s t ∧
      (s.active = some d → (s.dev d).apd = true → (s.dev d).mode = .read → dispatch t.context .drRead = .rdData d)

/-- RD_DATA (R96): a later read returns the byte at `read_addr`, and `read_addr` becomes `(read_addr + 1) mod 256`; the
register file is not changed. -/
def Obligations.LaterReadReturnsTheByteAtTheReadAddress : Prop :=
  ∀ (d : DeviceId) (s : State),
    dispatch (some ⟨d, true, true, .read⟩) .drRead = .rdData d ∧
    ∃ t, exec (.rdData d) s = .next t ∧
      Outside t s s.active s.latch s.sink (some (s.memRead d (s.dev d).readAddr)) ∧
      (t.dev d).readAddr.toNat = ((s.dev d).readAddr.toNat + 1) % 256 ∧
      (t.dev d).writeAddr = (s.dev d).writeAddr ∧ (t.dev d).apd = (s.dev d).apd ∧ (t.dev d).sas = (s.dev d).sas ∧
      (t.dev d).mode = (s.dev d).mode ∧ OthersKept d s t ∧ SameBytes s t

/-- RD_FALLBACK (R97, R98): with no Device active, or in a mode that is not Read, or before the address phase is done, a read
returns the backing cell and changes nothing.  The last case is the spec's own decision D8 (log 12). -/
def Obligations.OtherReadsReturnTheBackingCellAndChangeNothing : Prop :=
  dispatch none .drRead = .rdFallback ∧
  (∀ (d : DeviceId) (apd sas : Bool) (mode : Mode), mode ≠ .read → dispatch (some ⟨d, apd, sas, mode⟩) .drRead = .rdFallback) ∧
  (∀ (d : DeviceId) (sas : Bool), dispatch (some ⟨d, false, sas, .read⟩) .drRead = .rdFallback) ∧
  (∀ s : State, ∃ t, exec .rdFallback s = .next t ∧ Outside t s s.active s.latch s.sink (some s.latch) ∧
    (∀ e, t.dev e = s.dev e) ∧ SameBytes s t)

/-- The backing cell after a data-register write, in every state and under both policies (R90, R91).  Which policy holds is
the spec's own decision D5 (log 2). -/
def Obligations.EveryWriteUpdatesTheBackingCellByPolicy : Prop :=
  ∀ (s : State) (b : Byte) (rest : List Event), s.events = .drWrite b :: rest →
    ∃ t, step s = .next t ∧ t.latch = latchAfter s b ∧ t.readOut = none ∧ t.active = s.active ∧
      (s.latchWritePolicy = .always → t.latch = b)

/-- A read never writes the backing cell, a register file, the sink or the selection, and it always returns a byte (R94, R99;
the spec's own decision D6, log 15). -/
def Obligations.ReadsNeverWriteBackAndAlwaysReturnAByte : Prop :=
  ∀ (s : State) (rest : List Event), s.events = .drRead :: rest →
    ∃ t v, step s = .next t ∧ Outside t { s with events := rest } s.active s.latch s.sink (some v) ∧ SameBytes s t ∧
      (∀ e, (t.dev e).apd = (s.dev e).apd ∧ (t.dev e).mode = (s.dev e).mode ∧ (t.dev e).writeAddr = (s.dev e).writeAddr)

/-- A data-register write touches no Device but the active one, no Device at all while C is active, and the sink in family C's
case only (R93, R126).  That Device C is untouched while it is active is R126's, which the spec marks as derived and its
decision D23 (log 18). -/
def Obligations.WritesTouchOnlyTheActiveDevice : Prop :=
  ∀ (s : State) (b : Byte) (rest : List Event), s.events = .drWrite b :: rest →
    ∃ t, step s = .next t ∧ (∀ e, s.active ≠ some e → t.dev e = s.dev e) ∧ t.dev .C = s.dev .C ∧
      t.sink = if s.active = some .C then s.sink ++ [b] else s.sink

/-! ## Decoder family A -/

/-- A_RREG_CMD (R105): an opcode below 0x20 opens a Read transaction at register b. -/
def Obligations.RadioReadOpcodeOpensAReadAtItsRegister : Prop :=
  ∀ (b : Byte) (s : State), b.toNat < 0x20 →
    (∀ sas mode, dispatch (some ⟨.A, false, sas, mode⟩) (.drWrite b) = .aRregCmd b) ∧
    ∃ t, exec (.aRregCmd b) s = .next t ∧ Outside t s s.active (latchAfter s b) s.sink s.readOut ∧
      (t.dev .A).mode = .read ∧ (t.dev .A).readAddr = b ∧ (t.dev .A).readAddr = radioRegister b ∧ (t.dev .A).apd = true ∧
      (t.dev .A).sas = (s.dev .A).sas ∧ (t.dev .A).writeAddr = (s.dev .A).writeAddr ∧ OthersKept .A s t ∧ SameBytes s t

/-- A_WREG_CMD (R106): an opcode from 0x20 to 0x3F opens a Write transaction at register `b & 0x1F`; the opcode is not stored. -/
def Obligations.RadioWriteOpcodeOpensAWriteAtItsRegister : Prop :=
  ∀ (b : Byte) (s : State), 0x20 ≤ b.toNat → b.toNat < 0x40 →
    (∀ sas mode, dispatch (some ⟨.A, false, sas, mode⟩) (.drWrite b) = .aWregCmd b) ∧
    ∃ t, exec (.aWregCmd b) s = .next t ∧ Outside t s s.active (latchAfter s b) s.sink s.readOut ∧
      (t.dev .A).mode = .write ∧ (t.dev .A).writeAddr.toNat = b.toNat - 0x20 ∧ (t.dev .A).writeAddr = radioRegister b ∧
      (t.dev .A).apd = true ∧ (t.dev .A).sas = (s.dev .A).sas ∧ (t.dev .A).readAddr = (s.dev .A).readAddr ∧
      OthersKept .A s t ∧ SameBytes s t

/-- A_IGN_CMD (R107): an opcode of 0x40 or above opens an Ignore transaction; later bytes are discarded and reads fall back. -/
def Obligations.RadioIgnoreOpcodeOpensAnIgnoreTransaction : Prop :=
  ∀ (b : Byte) (s : State), 0x40 ≤ b.toNat →
    (∀ sas mode, dispatch (some ⟨.A, false, sas, mode⟩) (.drWrite b) = if b.toNat < 0x80 then .aIgnCmdLo b else .aIgnCmdHi b) ∧
    ∀ i, i = .aIgnCmdLo b ∨ i = .aIgnCmdHi b →
      ∃ t, exec i s = .next t ∧ Outside t s s.active (latchAfter s b) s.sink s.readOut ∧
        t.dev .A = { s.dev .A with mode := .ignore, apd := true } ∧ OthersKept .A s t ∧ SameBytes s t ∧
        (s.active = some .A →
          (∀ b', dispatch t.context (.drWrite b') = .aDataDiscard b') ∧ dispatch t.context .drRead = .rdFallback)

/-- A_DATA_DISCARD (R109): in Read or Ignore mode a later byte changes no Device field. -/
def Obligations.RadioDiscardsDataOutsideWriteMode : Prop :=
  ∀ (b : Byte) (s : State),
    (∀ sas mode, mode = .read ∨ mode = .ignore → dispatch (some ⟨.A, true, sas, mode⟩) (.drWrite b) = .aDataDiscard b) ∧
    ∃ t, exec (.aDataDiscard b) s = .next t ∧ Outside t s s.active (latchAfter s b) s.sink s.readOut ∧
      (∀ e, t.dev e = s.dev e) ∧ SameBytes s t

/-! ## Data bytes of families A and B -/

/-- A_DATA_WR and B_DATA_WR (R108, R117): in Write mode the byte lands at `write_addr`, which becomes
`(write_addr + 1) mod 256`; every other byte of every register file and every other field is as before. -/
def Obligations.DataByteLandsAtTheWriteAddress : Prop :=
  ∀ (b : Byte) (s : State) (d : DeviceId) (i : Instr), (d = .A ∧ i = .aDataWr b) ∨ (d = .B ∧ i = .bDataWr b) →
    (∀ sas, dispatch (some ⟨d, true, sas, .write⟩) (.drWrite b) = i) ∧
    ∃ t, exec i s = .next t ∧ Outside t s s.active (latchAfter s b) s.sink s.readOut ∧
      t.memRead d (s.dev d).writeAddr = b ∧
      (∀ e x, ¬ (e = d ∧ x = (s.dev d).writeAddr) → t.memRead e x = s.memRead e x) ∧
      (t.dev d).writeAddr.toNat = ((s.dev d).writeAddr.toNat + 1) % 256 ∧
      (t.dev d).readAddr = (s.dev d).readAddr ∧ (t.dev d).apd = (s.dev d).apd ∧ (t.dev d).sas = (s.dev d).sas ∧
      (t.dev d).mode = (s.dev d).mode ∧ OthersKept d s t

/-! ## Decoder family B -/

/-- B_RREG_CMD (R115): an opcode with bit 7 set opens a Read transaction at address b, bit 7 included. -/
def Obligations.SensorReadOpcodeKeepsTheHighBit : Prop :=
  ∀ (b : Byte) (s : State), 0x80 ≤ b.toNat →
    (∀ sas mode, dispatch (some ⟨.B, false, sas, mode⟩) (.drWrite b) = .bRregCmd b) ∧
    ∃ t, exec (.bRregCmd b) s = .next t ∧ Outside t s s.active (latchAfter s b) s.sink s.readOut ∧
      (t.dev .B).mode = .read ∧ (t.dev .B).readAddr = b ∧ (t.dev .B).apd = true ∧ (t.dev .B).sas = (s.dev .B).sas ∧
      (t.dev .B).writeAddr = (s.dev .B).writeAddr ∧ OthersKept .B s t ∧ SameBytes s t

/-- B_WREG_CMD (R116): an opcode with bit 7 clear opens a Write transaction at address `b | 0x80`; the opcode is not stored. -/
def Obligations.SensorWriteOpcodeForcesTheHighBit : Prop :=
  ∀ (b : Byte) (s : State), b.toNat < 0x80 →
    (∀ sas mode, dispatch (some ⟨.B, false, sas, mode⟩) (.drWrite b) = .bWregCmd b) ∧
    ∃ t, exec (.bWregCmd b) s = .next t ∧ Outside t s s.active (latchAfter s b) s.sink s.readOut ∧
      (t.dev .B).mode = .write ∧ (t.dev .B).writeAddr.toNat = b.toNat + 0x80 ∧ (t.dev .B).apd = true ∧
      (t.dev .B).sas = (s.dev .B).sas ∧ (t.dev .B).readAddr = (s.dev .B).readAddr ∧ OthersKept .B s t ∧ SameBytes s t

/-- B_DATA_DISCARD (R118; the spec's own decision D15, log 13): in Read mode, and in the unreachable Ignore mode, a later byte
changes no Device field. -/
def Obligations.SensorDiscardsDataOutsideWriteMode : Prop :=
  ∀ (b : Byte) (s : State),
    (∀ sas mode, mode = .read ∨ mode = .ignore → dispatch (some ⟨.B, true, sas, mode⟩) (.drWrite b) = .bDataDiscard b) ∧
    ∃ t, exec (.bDataDiscard b) s = .next t ∧ Outside t s s.active (latchAfter s b) s.sink s.readOut ∧
      (∀ e, t.dev e = s.dev e) ∧ SameBytes s t

/-- Every address a sensor transaction starts at has bit 7 set (R119). -/
def Obligations.SensorTransactionsStartInTheUpperHalf : Prop :=
  ∀ (s : State) (b : Byte) (rest : List Event), s.events = .drWrite b :: rest → s.active = some .B → (s.dev .B).apd = false →
    ∃ t, step s = .next t ∧
      (((t.dev .B).mode = .read ∧ 0x80 ≤ (t.dev .B).readAddr.toNat) ∨
       ((t.dev .B).mode = .write ∧ 0x80 ≤ (t.dev .B).writeAddr.toNat))

/-! ## Decoder family C and the sink -/

/-- C_CHAR (R125): every byte written while Device C is active is appended once to the sink, verbatim, whatever C's flags and
mode; no Device field is written. -/
def Obligations.PassthroughEmitsEveryByteOnce : Prop :=
  ∀ (b : Byte) (s : State),
    (∀ apd sas mode, dispatch (some ⟨.C, apd, sas, mode⟩) (.drWrite b) = .cChar b) ∧
    ∃ t, exec (.cChar b) s = .next t ∧ Outside t s s.active (latchAfter s b) (s.sink ++ [b]) s.readOut ∧
      (∀ e, t.dev e = s.dev e) ∧ SameBytes s t

/-- The sink only ever grows, by the one byte of a write while Device C is active (R34, R125, R128).  That every byte
is taken at once is the spec's own decision D13 (log 11). -/
def Obligations.SinkOnlyGrowsByBytesWrittenToC : Prop :=
  ∀ (s t : State), step s = .next t →
    t.sink = s.sink ∨ ∃ b rest, s.events = .drWrite b :: rest ∧ s.active = some .C ∧ t.sink = s.sink ++ [b]

/-- While Device C is active every read returns the backing cell (R126, marked by the spec as derived and its decision D23,
log 18).  The premise is the model's invariant: in it `dev[C].apd` is false. -/
def Obligations.ReadsWhilePassthroughIsActiveFallBack : Prop :=
  ∀ (s : State) (rest : List Event), s.Inv → s.events = .drRead :: rest → s.active = some .C →
    step s = .next { s with events := rest, readOut := some s.latch }

/-! ## Who writes what -/

/-- A register-file byte changes only by a data byte stored at `write_addr` of the active Device in Write mode, and takes that
byte (R21, R108, R117); so Device C's never changes (R127, the spec's own decision D27, log 18).  That a byte written to Device B
in Read mode stores nothing is D15 (log 13). -/
def Obligations.RegisterFilesChangeOnlyByDataBytes : Prop :=
  ∀ (s t : State) (d : DeviceId) (x : Byte), step s = .next t → t.memRead d x ≠ s.memRead d x →
    ∃ b rest, s.events = .drWrite b :: rest ∧ s.active = some d ∧ d ≠ .C ∧ (s.dev d).apd = true ∧
      (s.dev d).mode = .write ∧ x = (s.dev d).writeAddr ∧ t.memRead d x = b

/-- `apd` changes only by an assertion of the Device's line (to false) or an opcode (to true); `sas` only by an assertion (to
false) or the status read (to true) (R23, R24). -/
def Obligations.FlagsChangeOnlyByAssertionOpcodeAndStatusRead : Prop :=
  ∀ (s t : State) (d : DeviceId), step s = .next t →
    ((t.dev d).apd ≠ (s.dev d).apd →
      (∃ n rest, s.events = .csEdge n true :: rest ∧ deviceFor n = some d ∧ (t.dev d).apd = false) ∨
      (∃ b rest, s.events = .drWrite b :: rest ∧ s.active = some d ∧ d ≠ .C ∧ (t.dev d).apd = true)) ∧
    ((t.dev d).sas ≠ (s.dev d).sas →
      (∃ n rest, s.events = .csEdge n true :: rest ∧ deviceFor n = some d ∧ (t.dev d).sas = false) ∨
      (∃ rest, s.events = .drRead :: rest ∧ s.active = some d ∧ (s.dev d).mode = .read ∧ (s.dev d).apd = true ∧
        t.readOut = some 0x00#8 ∧ (t.dev d).sas = true))

/-- `mode` changes only by an opcode of the active Device; the addresses only by an opcode or by the post-increment of the
mode that uses them (R22, R25). -/
def Obligations.ModeAndAddressesChangeOnlyByTheirRules : Prop :=
  ∀ (s t : State) (d : DeviceId), step s = .next t →
    ((t.dev d).mode ≠ (s.dev d).mode →
      ∃ b rest, s.events = .drWrite b :: rest ∧ s.active = some d ∧ d ≠ .C ∧ (s.dev d).apd = false) ∧
    ((t.dev d).readAddr ≠ (s.dev d).readAddr →
      (∃ b rest, s.events = .drWrite b :: rest ∧ s.active = some d ∧ d ≠ .C ∧ (s.dev d).apd = false ∧ (t.dev d).mode = .read ∧
        (t.dev d).readAddr = b) ∨
      (∃ rest, s.events = .drRead :: rest ∧ s.active = some d ∧ (s.dev d).mode = .read ∧ (s.dev d).apd = true ∧
        (s.dev d).sas = true ∧ (t.dev d).readAddr = (s.dev d).readAddr + 1#8)) ∧
    ((t.dev d).writeAddr ≠ (s.dev d).writeAddr →
      (∃ b rest, s.events = .drWrite b :: rest ∧ s.active = some d ∧ d ≠ .C ∧ (s.dev d).apd = false ∧ (t.dev d).mode = .write) ∨
      (∃ b rest, s.events = .drWrite b :: rest ∧ s.active = some d ∧ d ≠ .C ∧ (s.dev d).apd = true ∧
        (s.dev d).mode = .write ∧ (t.dev d).writeAddr = (s.dev d).writeAddr + 1#8))

/-- `active` changes only by a chip-select edge of a known line: to its Device on assertion, from its Device to none on
deassertion (R31); `latch` only by a data-register write (R33). -/
def Obligations.SelectionAndBackingCellChangeOnlyByTheirRules : Prop :=
  ∀ (s t : State), step s = .next t →
    (t.active ≠ s.active →
      ∃ n v rest d, s.events = .csEdge n v :: rest ∧ deviceFor n = some d ∧
        ((v = true ∧ t.active = some d) ∨ (v = false ∧ s.active = some d ∧ t.active = none))) ∧
    (t.latch ≠ s.latch → ∃ b rest, s.events = .drWrite b :: rest ∧ t.latch = b)

/-! ## Invariants -/

/-- The reset state (R151) meets the invariant.  What it holds is chosen: the flags and mode are the spec's own decision D9 (log 4),
the 0x00 of the unlisted bytes is D10 (log 5), Device C's part is D23 and D27 (R126, R127, log 18), and the canonical form of a
register file is the model's (log 20).  R120 is the sensor's part. -/
def Obligations.ResetStateMeetsTheInvariant : Prop :=
  State.reset.Inv

/-- Every step keeps the invariant: canonical register files (the model's own form, log 20), Device C untouched (R126, R127, which
the spec marks as its decisions D23 and D27, log 18), no Ignore mode in a sensor transaction (R120), a status byte only in a Read
transaction (R24, R95; none for a read before the opcode, by the spec's decision D8, log 12). -/
def Obligations.EveryStepKeepsTheInvariant : Prop :=
  ∀ (s t : State), s.Inv → step s = .next t → t.Inv

/-- A register file has one representation: two canonical ones that read the same at every address are equal data. -/
def Obligations.CanonicalRegisterFilesThatReadAlikeAreEqual : Prop :=
  ∀ (m n : Memory), m.wf = true → n.wf = true → (∀ a, m.read a = n.read a) → m = n

/-! ## What the interface cannot show -/

/-- Stale transaction state cannot be observed (R29, R37): two states that differ only in what inactive Devices keep, and in
the mode and addresses the active Device's transaction does not use, stay so under every event, with the same returned byte,
the same sink and the same register files.  A read before the opcode and a byte written to B in Read mode follow the spec's
decisions D8 and D15 (log 12, 13). -/
def Obligations.StaleTransactionStateNeverReachesTheInterface : Prop :=
  ∀ (s t s' : State), s.Indistinguishable t → step s = .next s' → ∃ t', step t = .next t' ∧ s'.Indistinguishable t'

/-- The same over any number of steps: the host is returned the same bytes and sees the same sink (R29, with the decisions D8
and D15 as above, log 12, 13). -/
def Obligations.IndistinguishableStatesReturnTheSameBytes : Prop :=
  ∀ (k : Nat) (s t : State), s.Indistinguishable t →
    readTrace k s = readTrace k t ∧
    ∃ s' t', Host.Core.run Sys2Proof.core k s = .next s' ∧ Host.Core.run Sys2Proof.core k t = .next t' ∧ s'.sink = t'.sink

/-- An assertion makes the past of all transactions irrelevant (R28): after it, states that agreed on the register files, the
backing cell and the sink only are indistinguishable. -/
def Obligations.AssertionForgetsEarlierTransactions : Prop :=
  ∀ (s t : State) (d : DeviceId), (∀ e, (s.dev e).mem = (t.dev e).mem) → s.latch = t.latch → s.sink = t.sink →
    s.latchWritePolicy = t.latchWritePolicy → s.events = t.events → s.readOut = t.readOut →
    ∃ s' t', exec (.csAssert d) s = .next s' ∧ exec (.csAssert d) t = .next t' ∧ s'.Indistinguishable t'

/-! ## Whole transactions -/

/-- Within a Read transaction of Device A or B the reads return 0x00, then the bytes from `read_addr` on, one per read,
wrapping at 256, whatever bytes are written between them (R100).  For Device B, that a byte written between them changes nothing
is the spec's decision D15 (log 13). -/
def Obligations.ReadTransactionReturnsStatusThenConsecutiveBytes : Prop :=
  ∀ (s : State) (d : DeviceId), d ≠ .C → s.active = some d → (s.dev d).apd = true → (s.dev d).sas = false →
    (s.dev d).mode = .read → (∀ e ∈ s.events, e = .drRead ∨ ∃ b, e = .drWrite b) →
    readTrace s.events.length s =
      (0x00#8 :: (List.range s.events.length).map fun i => s.memRead d ((s.dev d).readAddr + BitVec.ofNat 8 i)).take
        (s.events.count .drRead)

/-- A run of data bytes in Write mode lands at successive addresses, wrapping at 256, in the order written, and changes no
other byte (R42, R110). -/
def Obligations.WriteRunLandsAtSuccessiveAddresses : Prop :=
  ∀ (s : State) (d : DeviceId) (bs : List Byte), d ≠ .C → s.active = some d → (s.dev d).apd = true → (s.dev d).mode = .write →
    bs.length ≤ 256 →
    ∃ t, afterEvents s (bs.map evWr) = .next t ∧
      (∀ i (h : i < bs.length), t.memRead d ((s.dev d).writeAddr + BitVec.ofNat 8 i) = bs[i]) ∧
      (∀ e x, (e = d → ∀ i < bs.length, x ≠ (s.dev d).writeAddr + BitVec.ofNat 8 i) → t.memRead e x = s.memRead e x) ∧
      (t.dev d).writeAddr = (s.dev d).writeAddr + BitVec.ofNat 8 bs.length

/-- A byte written in one transaction is returned by a read of the same address in a later one (R51), by the spec's
pseudo-operations (R75) from any state: family A at registers 0x00 to 0x1F, family B at addresses 0x80 to 0xFF. -/
def Obligations.ByteWrittenIsReadBackInALaterTransaction : Prop :=
  ∀ (s : State) (a b : Byte),
    (a.toNat < 0x20 → readTrace 9 { s with events := wregA a [b] ++ rregA a 1 } = [0x00#8, b]) ∧
    (0x80 ≤ a.toNat → readTrace 9 { s with events := wregB a [b] ++ rregB a 1 } = [0x00#8, b])

/-! ## Reset, boundary and codes -/

/-- The calibration seed (R152): Device B's register file at reset, byte by byte, and `MEM_INIT` at every other address. -/
def Obligations.ResetSeedsTheSensorRegisterFile : Prop :=
  ∀ (latchInit : Byte) (policy : LatchWritePolicy),
    (∀ p ∈ seedBytes, (State.resetWith latchInit policy).memRead .B p.1 = p.2) ∧
    (∀ x, x ∉ seedBytes.map Prod.fst → (State.resetWith latchInit policy).memRead .B x = Config.memInit)

/-- The reset state (R151).  The values are the spec's own decisions: D9 for the selection, flags, mode and addresses (log 4),
D10 for 0x00 bytes (log 5), D13 for the sink (log 11); the backing cell is any `LATCH_INIT` (OPEN, D7, log 3). -/
def Obligations.ResetSelectsNothingAndClearsTransactions : Prop :=
  ∀ (latchInit : Byte) (policy : LatchWritePolicy),
    (State.resetWith latchInit policy).active = none ∧ (State.resetWith latchInit policy).sink = [] ∧
    (State.resetWith latchInit policy).latch = latchInit ∧
    (∀ d, ((State.resetWith latchInit policy).dev d).apd = false ∧ ((State.resetWith latchInit policy).dev d).sas = false ∧
      ((State.resetWith latchInit policy).dev d).mode = .ignore ∧
      ((State.resetWith latchInit policy).dev d).readAddr = 0x00#8 ∧
      ((State.resetWith latchInit policy).dev d).writeAddr = 0x00#8) ∧
    (∀ d x, d ≠ .B → (State.resetWith latchInit policy).memRead d x = 0x00#8)

/-- Lines are asserted at logic low (R62): a level change to low is an assertion of the line's Device, one to high its
deassertion.  The ids are D3's (log 6). -/
def Obligations.LowLevelOfALineIsItsAssertion : Prop :=
  ∀ (d : DeviceId) (c : Context),
    dispatch c (edgeOfLevel (lineIdOf d) false) = .csAssert d ∧ dispatch c (edgeOfLevel (lineIdOf d) true) = .csDeassert d

/-- The 2-bit codes (R25, R31; the spec's own decision D14, log 19): no two modes share one and 0b11 is none's; no two values
of `active` share one. -/
def Obligations.ModeAndSelectionCodesAreDistinct : Prop :=
  (∀ m n : Mode, modeCode m = modeCode n → m = n) ∧ (∀ m : Mode, modeCode m ≠ 0b11#2) ∧
  (∀ a b : Option DeviceId, activeCode a = activeCode b → a = b)
end

