-- ==== Sys2Proof/Laws/Decode.lean ====
section
/-! SUPPORT. Small laws of the decoder: the ids of the three lines, the opcode ranges, and the bytes of an event. -/

namespace Sys2Proof

@[simp] theorem deviceFor_lineIdOf (d : DeviceId) : deviceFor (lineIdOf d) = some d := by
  cases d <;> rfl

/-- An id names a Device exactly if it is that Device's line id. -/
theorem deviceFor_eq_some {n : Byte} {d : DeviceId} : deviceFor n = some d ↔ n = lineIdOf d := by
  constructor
  · intro h
    unfold deviceFor at h
    split at h
    · cases h; assumption
    · split at h
      · cases h; assumption
      · split at h
        · cases h; assumption
        · cases h
  · rintro rfl
    exact deviceFor_lineIdOf d

/-- An id names no Device exactly if it is 3 or above (R63). -/
theorem deviceFor_eq_none {n : Byte} : deviceFor n = none ↔ 3 ≤ n.toNat := by
  unfold deviceFor
  split
  · next h => simp [h]
  · split
    · next h => simp [h]
    · split
      · next h => simp [h]
      · next h0 h1 h2 =>
        refine iff_of_true rfl ?_
        bv_omega

/-- Family B's bit test as a range test (R66). -/
theorem getLsbD_seven (b : Byte) : b.getLsbD 7 = decide (0x80 ≤ b.toNat) := by
  rw [← BitVec.msb_eq_getLsbD_last b, BitVec.msb_eq_decide]

theorem decodeSensorOpcode_eq (b : Byte) :
    decodeSensorOpcode b = if 0x80 ≤ b.toNat then .bRregCmd b else .bWregCmd b := by
  simp only [decodeSensorOpcode, getLsbD_seven, decide_eq_true_eq]

/-- An event's bytes decode to the event. -/
@[simp] theorem decodeEvent_bytes (e : Event) : decodeEvent e.bytes = .ok e := by
  cases e with
  | csEdge n v => cases v <;> rfl
  | drWrite b => rfl
  | drRead => rfl

/-- Decoding an event's bytes is dispatching the event. -/
theorem decode_bytes (c : Context) (e : Event) : decode c e.bytes = .ok (dispatch c e) := by
  simp [decode]

end Sys2Proof
end

