-- ==== Sys2Proof/Laws/Memory.lean ====
section
/-! SUPPORT. The laws of a register file: a read after a write, and the canonical form that every write keeps. -/

namespace Sys2Proof.Machine

theorem Memory.get_erase_same (m : Memory) (a : Nat) : (m.erase a).get a = Config.memInit := by
  induction m with
  | nil => rfl
  | cons cell rest ih =>
    obtain ⟨k, x⟩ := cell
    by_cases h : a = k
    · simpa [Memory.erase, h] using h ▸ ih
    · simpa [Memory.erase, Memory.get, h] using ih

theorem Memory.get_erase_other (m : Memory) {a c : Nat} (h : c ≠ a) : (m.erase a).get c = m.get c := by
  induction m with
  | nil => rfl
  | cons cell rest ih =>
    obtain ⟨k, x⟩ := cell
    by_cases hk : a = k
    · have hc : c ≠ k := hk ▸ h
      simpa [Memory.erase, Memory.get, hk, hc] using hk ▸ ih
    · by_cases hc : c = k <;> simp [Memory.erase, Memory.get, hk, hc, ih]

theorem Memory.get_insert_erased (m : Memory) (a : Nat) (v : Byte) : ((m.erase a).insert a v).get a = v := by
  induction m with
  | nil => simp [Memory.erase, Memory.insert, Memory.get]
  | cons cell rest ih =>
    obtain ⟨k, x⟩ := cell
    by_cases h : a = k
    · simpa [Memory.erase, h] using h ▸ ih
    · by_cases hlt : a < k <;> simp [Memory.erase, Memory.insert, Memory.get, h, hlt, ih]

theorem Memory.get_insert_other (m : Memory) {a c : Nat} (v : Byte) (h : c ≠ a) : (m.insert a v).get c = m.get c := by
  induction m with
  | nil => simp [Memory.insert, Memory.get, h]
  | cons cell rest ih =>
    obtain ⟨k, x⟩ := cell
    by_cases hlt : a < k <;> simp [Memory.insert, Memory.get, hlt, h, ih]

/-- A read of the byte just written gives it. -/
@[simp] theorem Memory.read_write_same (m : Memory) (a v : Byte) : (m.write a v).read a = v := by
  unfold Memory.read Memory.write Memory.put
  split
  · next h => simpa [h] using Memory.get_erase_same m a.toNat
  · exact Memory.get_insert_erased m a.toNat v

/-- A write leaves every other byte alone. -/
theorem Memory.read_write_other (m : Memory) {a c : Byte} (v : Byte) (h : c ≠ a) : (m.write a v).read c = m.read c := by
  have hn : c.toNat ≠ a.toNat := fun e => h (BitVec.eq_of_toNat_eq e)
  unfold Memory.read Memory.write Memory.put
  split
  · exact Memory.get_erase_other m hn
  · rw [Memory.get_insert_other _ v hn, Memory.get_erase_other m hn]

/-- The two read laws as one equation. -/
theorem Memory.read_write (m : Memory) (a v c : Byte) : (m.write a v).read c = if c = a then v else m.read c := by
  split
  · next h => subst h; simp
  · next h => exact Memory.read_write_other m v h

theorem Memory.risingFrom_mono {m : Memory} {lo lo' : Nat} (hle : lo' ≤ lo) (h : m.risingFrom lo = true) :
    m.risingFrom lo' = true := by
  cases m with
  | nil => rfl
  | cons cell rest =>
    obtain ⟨k, x⟩ := cell
    simp only [Memory.risingFrom, Bool.and_eq_true, decide_eq_true_eq] at h ⊢
    exact ⟨by omega, h.2⟩

theorem Memory.risingFrom_erase {m : Memory} {lo : Nat} (a : Nat) (h : m.risingFrom lo = true) :
    (m.erase a).risingFrom lo = true := by
  induction m generalizing lo with
  | nil => rfl
  | cons cell rest ih =>
    obtain ⟨k, x⟩ := cell
    simp only [Memory.risingFrom, Bool.and_eq_true, decide_eq_true_eq] at h
    by_cases hk : a = k
    · simpa [Memory.erase, hk] using hk ▸ ih (Memory.risingFrom_mono (by omega) h.2)
    · simpa [Memory.erase, Memory.risingFrom, hk, h.1] using ih h.2

theorem Memory.risingFrom_insert {m : Memory} {lo a : Nat} (v : Byte) (hm : ∀ cell ∈ m, cell.1 ≠ a)
    (h : m.risingFrom lo = true) (hlo : lo ≤ a) : (m.insert a v).risingFrom lo = true := by
  induction m generalizing lo with
  | nil => simp [Memory.insert, Memory.risingFrom, hlo]
  | cons cell rest ih =>
    obtain ⟨k, x⟩ := cell
    simp only [Memory.risingFrom, Bool.and_eq_true, decide_eq_true_eq] at h
    have hk : k ≠ a := hm (k, x) (by simp)
    by_cases hlt : a < k
    · simp only [Memory.insert, hlt, if_true, Memory.risingFrom, Bool.and_eq_true, decide_eq_true_eq]
      exact ⟨hlo, by omega, h.2⟩
    · simp only [Memory.insert, hlt, if_false, Memory.risingFrom, Bool.and_eq_true, decide_eq_true_eq]
      exact ⟨h.1, ih (fun c hc => hm c (by simp [hc])) h.2 (by omega)⟩

theorem Memory.mem_erase {m : Memory} {a : Nat} {cell : Host.Cell} (h : cell ∈ m.erase a) : cell ∈ m ∧ cell.1 ≠ a := by
  induction m with
  | nil => simp [Memory.erase] at h
  | cons c rest ih =>
    obtain ⟨k, x⟩ := c
    by_cases hk : a = k
    · simp only [Memory.erase, hk, if_true] at h
      have := ih (hk ▸ h)
      exact ⟨List.mem_cons_of_mem _ this.1, this.2⟩
    · simp only [Memory.erase, hk, if_false, List.mem_cons] at h
      rcases h with rfl | h
      · exact ⟨by simp, fun e => hk e.symm⟩
      · exact ⟨List.mem_cons_of_mem _ (ih h).1, (ih h).2⟩

theorem Memory.mem_insert {m : Memory} {a : Nat} {v : Byte} {cell : Host.Cell} (h : cell ∈ m.insert a v) :
    cell = (a, v) ∨ cell ∈ m := by
  induction m with
  | nil => simpa [Memory.insert] using h
  | cons c rest ih =>
    obtain ⟨k, x⟩ := c
    by_cases hlt : a < k
    · simpa [Memory.insert, hlt] using h
    · simp only [Memory.insert, hlt, if_false, List.mem_cons] at h ⊢
      rcases h with h | h
      · exact .inr (.inl h)
      · exact (ih h).imp_right .inr

/-- Every write keeps the canonical form. -/
theorem Memory.wf_write {m : Memory} (a v : Byte) (h : m.wf = true) : (m.write a v).wf = true := by
  simp only [Memory.wf, Bool.and_eq_true, List.all_eq_true, decide_eq_true_eq, bne_iff_ne] at h ⊢
  have he := Memory.risingFrom_erase a.toNat h.1
  unfold Memory.write Memory.put
  split
  · exact ⟨he, fun c hc => h.2 c (Memory.mem_erase hc).1⟩
  · next hv =>
    refine ⟨Memory.risingFrom_insert v (fun c hc => (Memory.mem_erase hc).2) he (Nat.zero_le _), fun c hc => ?_⟩
    rcases Memory.mem_insert hc with rfl | hc
    · exact ⟨a.isLt, hv⟩
    · exact h.2 c (Memory.mem_erase hc).1

@[simp] theorem Memory.wf_nil : Memory.wf [] = true := rfl

/-- A run of writes keeps the canonical form. -/
theorem Memory.wf_writeRun {m : Memory} (a : Byte) (bs : List Byte) (h : m.wf = true) : (m.writeRun a bs).wf = true := by
  induction bs generalizing m a with
  | nil => exact h
  | cons v rest ih => exact ih _ (Memory.wf_write a v h)

/-- The seeded register file is in canonical form. -/
theorem Memory.wf_seeded : Memory.seeded.wf = true := by decide

end Sys2Proof.Machine
end

