-- ==== Sys2Proof/Laws/State.lean ====
section
/-! SUPPORT. One lemma per field per update of a Device and of the state, so that no later proof unfolds a record update. -/

namespace Sys2Proof.Machine

/-! ## Devices -/

@[simp] theorem Device.clearFlags_mem (dv : Device) : (dv.clearFlags).mem = dv.mem := rfl
@[simp] theorem Device.clearFlags_readAddr (dv : Device) : (dv.clearFlags).readAddr = dv.readAddr := rfl
@[simp] theorem Device.clearFlags_writeAddr (dv : Device) : (dv.clearFlags).writeAddr = dv.writeAddr := rfl
@[simp] theorem Device.clearFlags_apd (dv : Device) : (dv.clearFlags).apd = false := rfl
@[simp] theorem Device.clearFlags_sas (dv : Device) : (dv.clearFlags).sas = false := rfl
@[simp] theorem Device.clearFlags_mode (dv : Device) : (dv.clearFlags).mode = dv.mode := rfl

@[simp] theorem Device.setApd_mem (dv : Device) : (dv.setApd).mem = dv.mem := rfl
@[simp] theorem Device.setApd_readAddr (dv : Device) : (dv.setApd).readAddr = dv.readAddr := rfl
@[simp] theorem Device.setApd_writeAddr (dv : Device) : (dv.setApd).writeAddr = dv.writeAddr := rfl
@[simp] theorem Device.setApd_apd (dv : Device) : (dv.setApd).apd = true := rfl
@[simp] theorem Device.setApd_sas (dv : Device) : (dv.setApd).sas = dv.sas := rfl
@[simp] theorem Device.setApd_mode (dv : Device) : (dv.setApd).mode = dv.mode := rfl

@[simp] theorem Device.setSas_mem (dv : Device) : (dv.setSas).mem = dv.mem := rfl
@[simp] theorem Device.setSas_readAddr (dv : Device) : (dv.setSas).readAddr = dv.readAddr := rfl
@[simp] theorem Device.setSas_writeAddr (dv : Device) : (dv.setSas).writeAddr = dv.writeAddr := rfl
@[simp] theorem Device.setSas_apd (dv : Device) : (dv.setSas).apd = dv.apd := rfl
@[simp] theorem Device.setSas_sas (dv : Device) : (dv.setSas).sas = true := rfl
@[simp] theorem Device.setSas_mode (dv : Device) : (dv.setSas).mode = dv.mode := rfl

@[simp] theorem Device.openRead_mem (dv : Device) (a : Byte) : (dv.openRead a).mem = dv.mem := rfl
@[simp] theorem Device.openRead_readAddr (dv : Device) (a : Byte) : (dv.openRead a).readAddr = a := rfl
@[simp] theorem Device.openRead_writeAddr (dv : Device) (a : Byte) : (dv.openRead a).writeAddr = dv.writeAddr := rfl
@[simp] theorem Device.openRead_apd (dv : Device) (a : Byte) : (dv.openRead a).apd = true := rfl
@[simp] theorem Device.openRead_sas (dv : Device) (a : Byte) : (dv.openRead a).sas = dv.sas := rfl
@[simp] theorem Device.openRead_mode (dv : Device) (a : Byte) : (dv.openRead a).mode = .read := rfl

@[simp] theorem Device.openWrite_mem (dv : Device) (a : Byte) : (dv.openWrite a).mem = dv.mem := rfl
@[simp] theorem Device.openWrite_readAddr (dv : Device) (a : Byte) : (dv.openWrite a).readAddr = dv.readAddr := rfl
@[simp] theorem Device.openWrite_writeAddr (dv : Device) (a : Byte) : (dv.openWrite a).writeAddr = a := rfl
@[simp] theorem Device.openWrite_apd (dv : Device) (a : Byte) : (dv.openWrite a).apd = true := rfl
@[simp] theorem Device.openWrite_sas (dv : Device) (a : Byte) : (dv.openWrite a).sas = dv.sas := rfl
@[simp] theorem Device.openWrite_mode (dv : Device) (a : Byte) : (dv.openWrite a).mode = .write := rfl

@[simp] theorem Device.openIgnore_mem (dv : Device) : (dv.openIgnore).mem = dv.mem := rfl
@[simp] theorem Device.openIgnore_readAddr (dv : Device) : (dv.openIgnore).readAddr = dv.readAddr := rfl
@[simp] theorem Device.openIgnore_writeAddr (dv : Device) : (dv.openIgnore).writeAddr = dv.writeAddr := rfl
@[simp] theorem Device.openIgnore_apd (dv : Device) : (dv.openIgnore).apd = true := rfl
@[simp] theorem Device.openIgnore_sas (dv : Device) : (dv.openIgnore).sas = dv.sas := rfl
@[simp] theorem Device.openIgnore_mode (dv : Device) : (dv.openIgnore).mode = .ignore := rfl

@[simp] theorem Device.advanceRead_mem (dv : Device) : (dv.advanceRead).mem = dv.mem := rfl
@[simp] theorem Device.advanceRead_readAddr (dv : Device) : (dv.advanceRead).readAddr = inc8 dv.readAddr := rfl
@[simp] theorem Device.advanceRead_writeAddr (dv : Device) : (dv.advanceRead).writeAddr = dv.writeAddr := rfl
@[simp] theorem Device.advanceRead_apd (dv : Device) : (dv.advanceRead).apd = dv.apd := rfl
@[simp] theorem Device.advanceRead_sas (dv : Device) : (dv.advanceRead).sas = dv.sas := rfl
@[simp] theorem Device.advanceRead_mode (dv : Device) : (dv.advanceRead).mode = dv.mode := rfl

@[simp] theorem Device.advanceWrite_mem (dv : Device) : (dv.advanceWrite).mem = dv.mem := rfl
@[simp] theorem Device.advanceWrite_readAddr (dv : Device) : (dv.advanceWrite).readAddr = dv.readAddr := rfl
@[simp] theorem Device.advanceWrite_writeAddr (dv : Device) : (dv.advanceWrite).writeAddr = inc8 dv.writeAddr := rfl
@[simp] theorem Device.advanceWrite_apd (dv : Device) : (dv.advanceWrite).apd = dv.apd := rfl
@[simp] theorem Device.advanceWrite_sas (dv : Device) : (dv.advanceWrite).sas = dv.sas := rfl
@[simp] theorem Device.advanceWrite_mode (dv : Device) : (dv.advanceWrite).mode = dv.mode := rfl

/-! ## Device selection -/

theorem State.dev_A (s : State) : s.dev .A = s.devA := rfl
theorem State.dev_B (s : State) : s.dev .B = s.devB := rfl
theorem State.dev_C (s : State) : s.dev .C = s.devC := rfl

theorem State.dev_setDev (s : State) (d e : DeviceId) (dv : Device) :
    (s.setDev d dv).dev e = if e = d then dv else s.dev e := by
  cases d <;> cases e <;> rfl

theorem State.dev_updateDev (s : State) (d e : DeviceId) (f : Device → Device) :
    (s.updateDev d f).dev e = if e = d then f (s.dev d) else s.dev e :=
  s.dev_setDev d e _

@[simp] theorem State.dev_updateDev_same (s : State) (d : DeviceId) (f : Device → Device) :
    (s.updateDev d f).dev d = f (s.dev d) := by
  simp [State.dev_updateDev]

theorem State.dev_updateDev_other (s : State) {d e : DeviceId} (f : Device → Device) (h : e ≠ d) :
    (s.updateDev d f).dev e = s.dev e := by
  simp [State.dev_updateDev, h]

/-! ## The state's other fields -/

@[simp] theorem State.setDev_active (s : State) (d : DeviceId) (dv : Device) : (s.setDev d dv).active = s.active := by cases d <;> rfl
@[simp] theorem State.setDev_latch (s : State) (d : DeviceId) (dv : Device) : (s.setDev d dv).latch = s.latch := by cases d <;> rfl
@[simp] theorem State.setDev_sink (s : State) (d : DeviceId) (dv : Device) : (s.setDev d dv).sink = s.sink := by cases d <;> rfl
@[simp] theorem State.setDev_latchWritePolicy (s : State) (d : DeviceId) (dv : Device) : (s.setDev d dv).latchWritePolicy = s.latchWritePolicy := by cases d <;> rfl
@[simp] theorem State.setDev_events (s : State) (d : DeviceId) (dv : Device) : (s.setDev d dv).events = s.events := by cases d <;> rfl
@[simp] theorem State.setDev_readOut (s : State) (d : DeviceId) (dv : Device) : (s.setDev d dv).readOut = s.readOut := by cases d <;> rfl

@[simp] theorem State.updateDev_active (s : State) (d : DeviceId) (f : Device → Device) : (s.updateDev d f).active = s.active := by cases d <;> rfl
@[simp] theorem State.updateDev_latch (s : State) (d : DeviceId) (f : Device → Device) : (s.updateDev d f).latch = s.latch := by cases d <;> rfl
@[simp] theorem State.updateDev_sink (s : State) (d : DeviceId) (f : Device → Device) : (s.updateDev d f).sink = s.sink := by cases d <;> rfl
@[simp] theorem State.updateDev_latchWritePolicy (s : State) (d : DeviceId) (f : Device → Device) : (s.updateDev d f).latchWritePolicy = s.latchWritePolicy := by cases d <;> rfl
@[simp] theorem State.updateDev_events (s : State) (d : DeviceId) (f : Device → Device) : (s.updateDev d f).events = s.events := by cases d <;> rfl
@[simp] theorem State.updateDev_readOut (s : State) (d : DeviceId) (f : Device → Device) : (s.updateDev d f).readOut = s.readOut := by cases d <;> rfl

@[simp] theorem State.memWrite_active (s : State) (d : DeviceId) (a v : Byte) : (s.memWrite d a v).active = s.active := by cases d <;> rfl
@[simp] theorem State.memWrite_latch (s : State) (d : DeviceId) (a v : Byte) : (s.memWrite d a v).latch = s.latch := by cases d <;> rfl
@[simp] theorem State.memWrite_sink (s : State) (d : DeviceId) (a v : Byte) : (s.memWrite d a v).sink = s.sink := by cases d <;> rfl
@[simp] theorem State.memWrite_latchWritePolicy (s : State) (d : DeviceId) (a v : Byte) : (s.memWrite d a v).latchWritePolicy = s.latchWritePolicy := by cases d <;> rfl
@[simp] theorem State.memWrite_events (s : State) (d : DeviceId) (a v : Byte) : (s.memWrite d a v).events = s.events := by cases d <;> rfl
@[simp] theorem State.memWrite_readOut (s : State) (d : DeviceId) (a v : Byte) : (s.memWrite d a v).readOut = s.readOut := by cases d <;> rfl

@[simp] theorem State.storeData_active (s : State) (d : DeviceId) (b : Byte) : (s.storeData d b).active = s.active := by cases d <;> rfl
@[simp] theorem State.storeData_latch (s : State) (d : DeviceId) (b : Byte) : (s.storeData d b).latch = s.latch := by cases d <;> rfl
@[simp] theorem State.storeData_sink (s : State) (d : DeviceId) (b : Byte) : (s.storeData d b).sink = s.sink := by cases d <;> rfl
@[simp] theorem State.storeData_latchWritePolicy (s : State) (d : DeviceId) (b : Byte) : (s.storeData d b).latchWritePolicy = s.latchWritePolicy := by cases d <;> rfl
@[simp] theorem State.storeData_events (s : State) (d : DeviceId) (b : Byte) : (s.storeData d b).events = s.events := by cases d <;> rfl
@[simp] theorem State.storeData_readOut (s : State) (d : DeviceId) (b : Byte) : (s.storeData d b).readOut = s.readOut := by cases d <;> rfl

@[simp] theorem State.loadData_active (s : State) (d : DeviceId) : (s.loadData d).active = s.active := by cases d <;> rfl
@[simp] theorem State.loadData_latch (s : State) (d : DeviceId) : (s.loadData d).latch = s.latch := by cases d <;> rfl
@[simp] theorem State.loadData_sink (s : State) (d : DeviceId) : (s.loadData d).sink = s.sink := by cases d <;> rfl
@[simp] theorem State.loadData_latchWritePolicy (s : State) (d : DeviceId) : (s.loadData d).latchWritePolicy = s.latchWritePolicy := by cases d <;> rfl
@[simp] theorem State.loadData_events (s : State) (d : DeviceId) : (s.loadData d).events = s.events := by cases d <;> rfl
@[simp] theorem State.loadData_readOut (s : State) (d : DeviceId) : (s.loadData d).readOut = some (s.memRead d (s.dev d).readAddr) := by cases d <;> rfl

@[simp] theorem State.setActive_dev (s : State) (a : Option DeviceId) (d : DeviceId) : (s.setActive a).dev d = s.dev d := by cases d <;> rfl
@[simp] theorem State.setActive_active (s : State) (a : Option DeviceId) : (s.setActive a).active = a := rfl
@[simp] theorem State.setActive_latch (s : State) (a : Option DeviceId) : (s.setActive a).latch = s.latch := rfl
@[simp] theorem State.setActive_sink (s : State) (a : Option DeviceId) : (s.setActive a).sink = s.sink := rfl
@[simp] theorem State.setActive_latchWritePolicy (s : State) (a : Option DeviceId) : (s.setActive a).latchWritePolicy = s.latchWritePolicy := rfl
@[simp] theorem State.setActive_events (s : State) (a : Option DeviceId) : (s.setActive a).events = s.events := rfl
@[simp] theorem State.setActive_readOut (s : State) (a : Option DeviceId) : (s.setActive a).readOut = s.readOut := rfl

@[simp] theorem State.setLatch_dev (s : State) (b : Byte) (d : DeviceId) : (s.setLatch b).dev d = s.dev d := by cases d <;> rfl
@[simp] theorem State.setLatch_active (s : State) (b : Byte) : (s.setLatch b).active = s.active := rfl
@[simp] theorem State.setLatch_latch (s : State) (b : Byte) : (s.setLatch b).latch = b := rfl
@[simp] theorem State.setLatch_sink (s : State) (b : Byte) : (s.setLatch b).sink = s.sink := rfl
@[simp] theorem State.setLatch_latchWritePolicy (s : State) (b : Byte) : (s.setLatch b).latchWritePolicy = s.latchWritePolicy := rfl
@[simp] theorem State.setLatch_events (s : State) (b : Byte) : (s.setLatch b).events = s.events := rfl
@[simp] theorem State.setLatch_readOut (s : State) (b : Byte) : (s.setLatch b).readOut = s.readOut := rfl

@[simp] theorem State.emit_dev (s : State) (v : Byte) (d : DeviceId) : (s.emit v).dev d = s.dev d := by cases d <;> rfl
@[simp] theorem State.emit_active (s : State) (v : Byte) : (s.emit v).active = s.active := rfl
@[simp] theorem State.emit_latch (s : State) (v : Byte) : (s.emit v).latch = s.latch := rfl
@[simp] theorem State.emit_sink (s : State) (v : Byte) : (s.emit v).sink = s.sink ++ [v] := rfl
@[simp] theorem State.emit_latchWritePolicy (s : State) (v : Byte) : (s.emit v).latchWritePolicy = s.latchWritePolicy := rfl
@[simp] theorem State.emit_events (s : State) (v : Byte) : (s.emit v).events = s.events := rfl
@[simp] theorem State.emit_readOut (s : State) (v : Byte) : (s.emit v).readOut = s.readOut := rfl

@[simp] theorem State.returnByte_dev (s : State) (v : Byte) (d : DeviceId) : (s.returnByte v).dev d = s.dev d := by cases d <;> rfl
@[simp] theorem State.returnByte_active (s : State) (v : Byte) : (s.returnByte v).active = s.active := rfl
@[simp] theorem State.returnByte_latch (s : State) (v : Byte) : (s.returnByte v).latch = s.latch := rfl
@[simp] theorem State.returnByte_sink (s : State) (v : Byte) : (s.returnByte v).sink = s.sink := rfl
@[simp] theorem State.returnByte_latchWritePolicy (s : State) (v : Byte) : (s.returnByte v).latchWritePolicy = s.latchWritePolicy := rfl
@[simp] theorem State.returnByte_events (s : State) (v : Byte) : (s.returnByte v).events = s.events := rfl
@[simp] theorem State.returnByte_readOut (s : State) (v : Byte) : (s.returnByte v).readOut = some v := rfl

@[simp] theorem State.takeEvent_dev (s : State) (d : DeviceId) : (s.takeEvent).dev d = s.dev d := by cases d <;> rfl
@[simp] theorem State.takeEvent_active (s : State) : (s.takeEvent).active = s.active := rfl
@[simp] theorem State.takeEvent_latch (s : State) : (s.takeEvent).latch = s.latch := rfl
@[simp] theorem State.takeEvent_sink (s : State) : (s.takeEvent).sink = s.sink := rfl
@[simp] theorem State.takeEvent_latchWritePolicy (s : State) : (s.takeEvent).latchWritePolicy = s.latchWritePolicy := rfl
@[simp] theorem State.takeEvent_events (s : State) : (s.takeEvent).events = s.events.tail := rfl
@[simp] theorem State.takeEvent_readOut (s : State) : (s.takeEvent).readOut = none := rfl

end Sys2Proof.Machine
end

