-- ==== Sys2Proof/Laws/Ops.lean ====
section
/-! SUPPORT. One lemma per shared operation that says everything it does; the provers cite these and do not unfold it. -/

namespace Sys2Proof.Machine

/-! ## The latch update (R91) -/

theorem State.latchWrite_latch (s : State) (b : Byte) :
    (s.latchWrite b).latch = if s.latchWritePolicy = .always ∨ s.active = none then b else s.latch := by
  unfold State.latchWrite
  split <;> rfl

/-- The latch update writes the backing cell and nothing else. -/
theorem State.latchWrite_spec (s : State) (b : Byte) : ∃ v, s.latchWrite b = s.setLatch v := by
  unfold State.latchWrite
  split
  · exact ⟨b, rfl⟩
  · exact ⟨s.latch, rfl⟩

@[simp] theorem State.latchWrite_dev (s : State) (b : Byte) (d : DeviceId) : (s.latchWrite b).dev d = s.dev d := by
  obtain ⟨v, h⟩ := s.latchWrite_spec b
  simp [h]

@[simp] theorem State.latchWrite_active (s : State) (b : Byte) : (s.latchWrite b).active = s.active := by
  obtain ⟨v, h⟩ := s.latchWrite_spec b
  simp [h]

@[simp] theorem State.latchWrite_sink (s : State) (b : Byte) : (s.latchWrite b).sink = s.sink := by
  obtain ⟨v, h⟩ := s.latchWrite_spec b
  simp [h]

@[simp] theorem State.latchWrite_latchWritePolicy (s : State) (b : Byte) :
    (s.latchWrite b).latchWritePolicy = s.latchWritePolicy := by
  obtain ⟨v, h⟩ := s.latchWrite_spec b
  simp [h]

@[simp] theorem State.latchWrite_events (s : State) (b : Byte) : (s.latchWrite b).events = s.events := by
  obtain ⟨v, h⟩ := s.latchWrite_spec b
  simp [h]

@[simp] theorem State.latchWrite_readOut (s : State) (b : Byte) : (s.latchWrite b).readOut = s.readOut := by
  obtain ⟨v, h⟩ := s.latchWrite_spec b
  simp [h]

/-! ## Register-file accesses -/

/-- What the register files read as after one byte of one of them is written. -/
theorem State.memRead_memWrite (s : State) (d e : DeviceId) (a v c : Byte) :
    (s.memWrite d a v).memRead e c = if e = d ∧ c = a then v else s.memRead e c := by
  unfold State.memRead State.memWrite
  rw [State.dev_setDev]
  by_cases h : e = d
  · subst h
    simp [Memory.read_write]
  · simp [h]

/-- A data byte stored: its Device has the byte at the old write address, the address advanced, all else kept. -/
theorem State.storeData_dev (s : State) (d : DeviceId) (b : Byte) :
    (s.storeData d b).dev d =
      { s.dev d with
        mem := (s.dev d).mem.write (s.dev d).writeAddr b
        writeAddr := inc8 (s.dev d).writeAddr } := by
  cases d <;> rfl

theorem State.storeData_dev_other (s : State) {d e : DeviceId} (b : Byte) (h : e ≠ d) :
    (s.storeData d b).dev e = s.dev e := by
  cases d <;> cases e <;> first | rfl | exact absurd rfl h

/-- A data byte stored keeps every register file canonical. -/
theorem State.storeData_keeps_wf {s : State} (d : DeviceId) (b : Byte) (h : ∀ e, (s.dev e).mem.wf = true) :
    ∀ e, ((s.storeData d b).dev e).mem.wf = true := by
  intro e
  by_cases he : e = d
  · subst he
    simp [State.storeData_dev, Memory.wf_write, h]
  · simp [State.storeData_dev_other _ _ he, h]

/-- A data byte loaded: its Device has the read address advanced, all else kept. -/
theorem State.loadData_dev (s : State) (d : DeviceId) :
    (s.loadData d).dev d = (s.dev d).advanceRead := by
  cases d <;> rfl

theorem State.loadData_dev_other (s : State) {d e : DeviceId} (h : e ≠ d) : (s.loadData d).dev e = s.dev e := by
  cases d <;> cases e <;> first | rfl | exact absurd rfl h

/-! ## The context (R70, R71) -/

theorem State.context_none {s : State} (h : s.active = none) : s.context = none := by
  simp [State.context, h]

theorem State.context_some {s : State} {d : DeviceId} (h : s.active = some d) :
    s.context = some ⟨d, (s.dev d).apd, (s.dev d).sas, (s.dev d).mode⟩ := by
  simp [State.context, h]

end Sys2Proof.Machine
end

