-- ==== Sys2Proof/Laws/PerInstr.lean ====
section
/-! SUPPORT. A family of statements made per operation: the bytes an operation is encoded in are those of one event, and
decode back to that event. -/

namespace Sys2Proof.Laws.EventBytes

/-- The first layer of the decoder reads an operation's bytes back as its event. -/
def Statement (i : Instr) : Prop :=
  decodeEvent (encode i) = .ok (encodeEvent i)

theorem csAssert (d : DeviceId) : Statement (.csAssert d) := decodeEvent_bytes _
theorem csDeassert (d : DeviceId) : Statement (.csDeassert d) := decodeEvent_bytes _
theorem csUnknown (lineId : Byte) (asserted : Bool) : Statement (.csUnknown lineId asserted) := decodeEvent_bytes _
theorem wrNosel (b : Byte) : Statement (.wrNosel b) := decodeEvent_bytes _
theorem aRregCmd (b : Byte) : Statement (.aRregCmd b) := decodeEvent_bytes _
theorem aWregCmd (b : Byte) : Statement (.aWregCmd b) := decodeEvent_bytes _
theorem aIgnCmdLo (b : Byte) : Statement (.aIgnCmdLo b) := decodeEvent_bytes _
theorem aIgnCmdHi (b : Byte) : Statement (.aIgnCmdHi b) := decodeEvent_bytes _
theorem aDataWr (b : Byte) : Statement (.aDataWr b) := decodeEvent_bytes _
theorem aDataDiscard (b : Byte) : Statement (.aDataDiscard b) := decodeEvent_bytes _
theorem bRregCmd (b : Byte) : Statement (.bRregCmd b) := decodeEvent_bytes _
theorem bWregCmd (b : Byte) : Statement (.bWregCmd b) := decodeEvent_bytes _
theorem bDataWr (b : Byte) : Statement (.bDataWr b) := decodeEvent_bytes _
theorem bDataDiscard (b : Byte) : Statement (.bDataDiscard b) := decodeEvent_bytes _
theorem cChar (b : Byte) : Statement (.cChar b) := decodeEvent_bytes _
theorem rdFallback : Statement .rdFallback := decodeEvent_bytes _
theorem rdStatus (d : DeviceId) : Statement (.rdStatus d) := decodeEvent_bytes _
theorem rdData (d : DeviceId) : Statement (.rdData d) := decodeEvent_bytes _

end Sys2Proof.Laws.EventBytes
end

