-- ==== Sys2Proof/Laws/Step.lean ====
section
/-! SUPPORT. What a step can do, said once per event kind; invariants and frames are read off these. -/

namespace Sys2Proof.Machine

theorem step_idle {s : State} (h : s.events = []) : step s = .next s := by
  simp [step, State.nextEvent?, h]

theorem step_event {s : State} {e : Event} {rest : List Event} (h : s.events = e :: rest) :
    step s = exec (dispatch s.context e) s.takeEvent := by
  simp [step, State.nextEvent?, h]

/-- The operations a read performs, by the state it finds. -/
theorem dispatchRead_cases (s : State) :
    (dispatchRead s.context = .rdFallback ∧ ∀ d, s.active = some d → (s.dev d).mode = .read → (s.dev d).apd = false) ∨
    (∃ d, s.active = some d ∧ (s.dev d).mode = .read ∧ (s.dev d).apd = true ∧ (s.dev d).sas = false ∧
      dispatchRead s.context = .rdStatus d) ∨
    (∃ d, s.active = some d ∧ (s.dev d).mode = .read ∧ (s.dev d).apd = true ∧ (s.dev d).sas = true ∧
      dispatchRead s.context = .rdData d) := by
  cases h : s.active with
  | none => exact .inl ⟨by simp [State.context_none h, dispatchRead], by simp⟩
  | some d =>
    rw [State.context_some h]
    cases hm : (s.dev d).mode with
    | ignore => exact .inl ⟨rfl, by rintro _ ⟨rfl⟩; simp [hm]⟩
    | write => exact .inl ⟨rfl, by rintro _ ⟨rfl⟩; simp [hm]⟩
    | read =>
      cases ha : (s.dev d).apd with
      | false => exact .inl ⟨rfl, by rintro _ ⟨rfl⟩; simp [ha]⟩
      | true =>
        cases hs : (s.dev d).sas with
        | false => exact .inr (.inl ⟨d, rfl, hm, ha, hs, rfl⟩)
        | true => exact .inr (.inr ⟨d, rfl, hm, ha, hs, rfl⟩)

/-- What an opcode byte does to its Device (R64 to R67); the passthrough Device has no opcode. -/
def openingOf (d : DeviceId) (b : Byte) (dv : Device) : Device :=
  match d with
  | .A =>
    if b.toNat < 0x20 then dv.openRead b
    else if b.toNat < 0x40 then dv.openWrite (radioWriteAddr b)
    else dv.openIgnore
  | .B => if b.getLsbD 7 then dv.openRead b else dv.openWrite (sensorWriteAddr b)
  | .C => dv

/-- What a data-register write does, by the state it finds: the latch update, then the opening of a transaction, a stored
byte, nothing more, or one byte to the sink. -/
theorem execWrite_cases (s u : State) (b : Byte) :
    (s.active = none ∧ exec (dispatchWrite s.context b) u = .next (u.setLatch b)) ∨
    (∃ d, s.active = some d ∧ d ≠ .C ∧ (s.dev d).apd = false ∧
      exec (dispatchWrite s.context b) u = .next ((u.latchWrite b).updateDev d (openingOf d b))) ∨
    (∃ d, s.active = some d ∧ d ≠ .C ∧ (s.dev d).apd = true ∧ (s.dev d).mode = .write ∧
      exec (dispatchWrite s.context b) u = .next ((u.latchWrite b).storeData d b)) ∨
    (∃ d, s.active = some d ∧ d ≠ .C ∧ (s.dev d).apd = true ∧ (s.dev d).mode ≠ .write ∧
      exec (dispatchWrite s.context b) u = .next (u.latchWrite b)) ∨
    (s.active = some .C ∧ exec (dispatchWrite s.context b) u = .next ((u.latchWrite b).emit b)) := by
  cases h : s.active with
  | none => exact .inl ⟨rfl, by rw [State.context_none h]; rfl⟩
  | some d =>
    rw [State.context_some h]
    cases d with
    | C => exact .inr (.inr (.inr (.inr ⟨rfl, rfl⟩)))
    | A =>
      cases ha : (s.dev .A).apd with
      | true =>
        cases hm : (s.dev .A).mode with
        | write => exact .inr (.inr (.inl ⟨.A, rfl, by simp, ha, hm, rfl⟩))
        | read => exact .inr (.inr (.inr (.inl ⟨.A, rfl, by simp, ha, by simp [hm], rfl⟩)))
        | ignore => exact .inr (.inr (.inr (.inl ⟨.A, rfl, by simp, ha, by simp [hm], rfl⟩)))
      | false =>
        refine .inr (.inl ⟨.A, rfl, by simp, ha, ?_⟩)
        have hf : openingOf .A b = if b.toNat < 0x20 then fun dv => dv.openRead b
            else if b.toNat < 0x40 then fun dv => dv.openWrite (radioWriteAddr b) else Device.openIgnore := by
          funext dv
          simp only [openingOf]
          split
          · rfl
          · split <;> rfl
        rw [hf]
        simp only [dispatchWrite, decodeRadioOpcode, Bool.false_eq_true, if_false]
        split
        · rfl
        · split
          · rfl
          · split <;> rfl
    | B =>
      cases ha : (s.dev .B).apd with
      | true =>
        cases hm : (s.dev .B).mode with
        | write => exact .inr (.inr (.inl ⟨.B, rfl, by simp, ha, hm, rfl⟩))
        | read => exact .inr (.inr (.inr (.inl ⟨.B, rfl, by simp, ha, by simp [hm], rfl⟩)))
        | ignore => exact .inr (.inr (.inr (.inl ⟨.B, rfl, by simp, ha, by simp [hm], rfl⟩)))
      | false =>
        refine .inr (.inl ⟨.B, rfl, by simp, ha, ?_⟩)
        have hf : openingOf .B b = if b.getLsbD 7 = true then fun dv => dv.openRead b
            else fun dv => dv.openWrite (sensorWriteAddr b) := by
          funext dv
          simp only [openingOf]
          split <;> rfl
        rw [hf]
        simp only [dispatchWrite, decodeSensorOpcode, Bool.false_eq_true, if_false]
        split <;> rfl

/-- What a chip-select edge does (R80, R81, R82). -/
theorem execEdge_cases (n : Byte) (v : Bool) (u : State) :
    (∃ d, deviceFor n = some d ∧ v = true ∧
      exec (dispatchEdge n v) u = .next ((u.setActive (some d)).updateDev d Device.clearFlags)) ∨
    (∃ d, deviceFor n = some d ∧ v = false ∧ u.active = some d ∧ exec (dispatchEdge n v) u = .next (u.setActive none)) ∨
    (exec (dispatchEdge n v) u = .next u ∧ ((deviceFor n = none) ∨
      ∃ d, deviceFor n = some d ∧ v = false ∧ u.active ≠ some d)) := by
  unfold dispatchEdge
  cases hd : deviceFor n with
  | none => exact .inr (.inr ⟨rfl, .inl rfl⟩)
  | some d =>
    cases v with
    | true => exact .inl ⟨d, rfl, rfl, rfl⟩
    | false =>
      by_cases h : u.active = some d
      · exact .inr (.inl ⟨d, rfl, rfl, h, by simp [exec, execCsDeassert, h]⟩)
      · exact .inr (.inr ⟨by simp [exec, execCsDeassert, h], .inr ⟨d, rfl, rfl, h⟩⟩)

/-- The inversion lemma of the step: every way a step can go, by the state it finds, with the state it leaves. -/
theorem step_cases {s t : State} (h : step s = .next t) :
    (s.events = [] ∧ t = s) ∨
    (∃ n v rest, s.events = .csEdge n v :: rest ∧
      ((∃ d, deviceFor n = some d ∧ v = true ∧ t = (s.takeEvent.setActive (some d)).updateDev d Device.clearFlags) ∨
       (∃ d, deviceFor n = some d ∧ v = false ∧ s.active = some d ∧ t = s.takeEvent.setActive none) ∨
       t = s.takeEvent)) ∨
    (∃ b rest, s.events = .drWrite b :: rest ∧
      ((s.active = none ∧ t = s.takeEvent.setLatch b) ∨
       (∃ d, s.active = some d ∧ d ≠ .C ∧ (s.dev d).apd = false ∧
          t = (s.takeEvent.latchWrite b).updateDev d (openingOf d b)) ∨
       (∃ d, s.active = some d ∧ d ≠ .C ∧ (s.dev d).apd = true ∧ (s.dev d).mode = .write ∧
          t = (s.takeEvent.latchWrite b).storeData d b) ∨
       (∃ d, s.active = some d ∧ d ≠ .C ∧ (s.dev d).apd = true ∧ (s.dev d).mode ≠ .write ∧
          t = s.takeEvent.latchWrite b) ∨
       (s.active = some .C ∧ t = (s.takeEvent.latchWrite b).emit b))) ∨
    (∃ rest, s.events = .drRead :: rest ∧
      (((∀ d, s.active = some d → (s.dev d).mode = .read → (s.dev d).apd = false) ∧
          t = s.takeEvent.returnByte s.latch) ∨
       (∃ d, s.active = some d ∧ (s.dev d).mode = .read ∧ (s.dev d).apd = true ∧ (s.dev d).sas = false ∧
          t = (s.takeEvent.updateDev d Device.setSas).returnByte Config.statusByte) ∨
       (∃ d, s.active = some d ∧ (s.dev d).mode = .read ∧ (s.dev d).apd = true ∧ (s.dev d).sas = true ∧
          t = s.takeEvent.loadData d))) := by
  cases hs : s.events with
  | nil => rw [step_idle hs] at h; cases h; exact .inl ⟨rfl, rfl⟩
  | cons e rest =>
    rw [step_event hs] at h
    cases e with
    | csEdge n v =>
      refine .inr (.inl ⟨n, v, rest, rfl, ?_⟩)
      rcases execEdge_cases n v s.takeEvent with ⟨d, h1, h2, h3⟩ | ⟨d, h1, h2, h3, h4⟩ | ⟨h1, h2⟩
      · rw [dispatch, h3] at h; cases h; exact .inl ⟨d, h1, h2, rfl⟩
      · rw [dispatch, h4] at h; cases h; exact .inr (.inl ⟨d, h1, h2, by simpa using h3, rfl⟩)
      · rw [dispatch, h1] at h; cases h; exact .inr (.inr rfl)
    | drWrite b =>
      refine .inr (.inr (.inl ⟨b, rest, rfl, ?_⟩))
      rcases execWrite_cases s s.takeEvent b with ⟨h1, h2⟩ | ⟨d, h1, h2, h3, h4⟩ | ⟨d, h1, h2, h3, h4, h5⟩ | ⟨d, h1, h2, h3, h4, h5⟩ | ⟨h1, h2⟩
      · rw [dispatch, h2] at h; cases h; exact .inl ⟨h1, rfl⟩
      · rw [dispatch, h4] at h; cases h; exact .inr (.inl ⟨d, h1, h2, h3, rfl⟩)
      · rw [dispatch, h5] at h; cases h; exact .inr (.inr (.inl ⟨d, h1, h2, h3, h4, rfl⟩))
      · rw [dispatch, h5] at h; cases h; exact .inr (.inr (.inr (.inl ⟨d, h1, h2, h3, h4, rfl⟩)))
      · rw [dispatch, h2] at h; cases h; exact .inr (.inr (.inr (.inr ⟨h1, rfl⟩)))
    | drRead =>
      refine .inr (.inr (.inr ⟨rest, rfl, ?_⟩))
      rcases dispatchRead_cases s with ⟨h1, h2⟩ | ⟨d, h1, h2, h3, h4, h5⟩ | ⟨d, h1, h2, h3, h4, h5⟩
      · rw [dispatch, h1] at h; cases h; exact .inl ⟨h2, rfl⟩
      · rw [dispatch, h5] at h; cases h; exact .inr (.inl ⟨d, h1, h2, h3, h4, rfl⟩)
      · rw [dispatch, h5] at h; cases h; exact .inr (.inr ⟨d, h1, h2, h3, h4, rfl⟩)

/-! ## What an opcode leaves alone -/

@[simp] theorem openingOf_mem (d : DeviceId) (b : Byte) (dv : Device) : (openingOf d b dv).mem = dv.mem := by
  cases d <;> simp only [openingOf] <;> (repeat' split) <;> simp

@[simp] theorem openingOf_sas (d : DeviceId) (b : Byte) (dv : Device) : (openingOf d b dv).sas = dv.sas := by
  cases d <;> simp only [openingOf] <;> (repeat' split) <;> simp

theorem openingOf_apd {d : DeviceId} (b : Byte) (dv : Device) (h : d ≠ .C) : (openingOf d b dv).apd = true := by
  cases d <;> simp only [openingOf] <;> (repeat' split) <;> first | simp | exact absurd rfl h

end Sys2Proof.Machine
end

