-- ==== Sys2Proof/Tests/Slice0.lean ====
section
/-! SUPPORT. The model's own tests: the well-formedness checks refuse, words written out from the spec's encodings decode, one
step per test against the spec's worked examples and vectors (95_test_vectors.md), and a witness for every statement with
hypotheses. -/

namespace Sys2Proof.Tests

open Sys2Proof.Machine Sys2Proof.Claims

/-! ## Helpers -/

/-- Reset, then one Device active with the given flags, mode and addresses. -/
def busy (d : DeviceId) (apd sas : Bool) (mode : Mode) (readAddr writeAddr : Byte) : State :=
  (State.reset.setActive (some d)).setDev d
    { State.reset.dev d with apd := apd, sas := sas, mode := mode, readAddr := readAddr, writeAddr := writeAddr }

/-- Whether one event's step answers a next state that passes a check. -/
def after (e : Event) (s : State) (check : State → Bool) : Bool :=
  match step { s with events := [e] } with
  | .next t => check t
  | .fault _ => false
  | .refused _ => false

/-! ## Each well-formedness check refuses an ill-formed term -/

theorem test_wf_csUnknown_known_line : (Instr.csUnknown 0x02#8 true).wellFormed = false := by decide
theorem test_wf_aRregCmd_write_opcode : (Instr.aRregCmd 0x20#8).wellFormed = false := by decide
theorem test_wf_aWregCmd_read_opcode : (Instr.aWregCmd 0x1F#8).wellFormed = false := by decide
theorem test_wf_aWregCmd_ignore_opcode : (Instr.aWregCmd 0x40#8).wellFormed = false := by decide
theorem test_wf_aIgnCmdLo_write_opcode : (Instr.aIgnCmdLo 0x3F#8).wellFormed = false := by decide
theorem test_wf_aIgnCmdLo_high_opcode : (Instr.aIgnCmdLo 0x80#8).wellFormed = false := by decide
theorem test_wf_aIgnCmdHi_low_opcode : (Instr.aIgnCmdHi 0x7F#8).wellFormed = false := by decide
theorem test_wf_bRregCmd_write_opcode : (Instr.bRregCmd 0x7F#8).wellFormed = false := by decide
theorem test_wf_bWregCmd_read_opcode : (Instr.bWregCmd 0x80#8).wellFormed = false := by decide

/-! ## Every constructor's word, written out from its encoding (R61 to R69), decodes to it in its context -/

/-- `{asserted = 1, line_id = 0000 0010}` (R61, R63). -/
theorem test_decode_csAssert : decodeTableWordIn none 9 0b100000010 = some (.csAssert .C) := by decide
/-- `{asserted = 0, line_id = 0000 0001}`. -/
theorem test_decode_csDeassert : decodeTableWordIn none 9 0b000000001 = some (.csDeassert .B) := by decide
/-- `{asserted = 1, line_id = 1000 0000}`. -/
theorem test_decode_csUnknown : decodeTableWordIn none 9 0b110000000 = some (.csUnknown 0x80#8 true) := by decide
theorem test_decode_wrNosel : decodeTableWordIn none 8 0b01000001 = some (.wrNosel 0x41#8) := by decide
/-- `000 rrrrr`, r = 0x1F (V-A2). -/
theorem test_decode_aRregCmd :
    decodeTableWordIn (some ⟨.A, false, false, .write⟩) 8 0b00011111 = some (.aRregCmd 0x1F#8) := by decide
/-- `001 rrrrr`, r = 0 (V-A3). -/
theorem test_decode_aWregCmd :
    decodeTableWordIn (some ⟨.A, false, false, .read⟩) 8 0b00100000 = some (.aWregCmd 0x20#8) := by decide
/-- `01 xxxxxx` (V-A5). -/
theorem test_decode_aIgnCmdLo :
    decodeTableWordIn (some ⟨.A, false, false, .read⟩) 8 0b01000000 = some (.aIgnCmdLo 0x40#8) := by decide
/-- `1 xxxxxxx` (V-A6). -/
theorem test_decode_aIgnCmdHi :
    decodeTableWordIn (some ⟨.A, false, false, .read⟩) 8 0b10000000 = some (.aIgnCmdHi 0x80#8) := by decide
theorem test_decode_aDataWr :
    decodeTableWordIn (some ⟨.A, true, false, .write⟩) 8 0b00010001 = some (.aDataWr 0x11#8) := by decide
theorem test_decode_aDataDiscard :
    decodeTableWordIn (some ⟨.A, true, true, .ignore⟩) 8 0b00010001 = some (.aDataDiscard 0x11#8) := by decide
/-- `1 aaaaaaa`, a = 0 (V-B3). -/
theorem test_decode_bRregCmd :
    decodeTableWordIn (some ⟨.B, false, false, .ignore⟩) 8 0b10000000 = some (.bRregCmd 0x80#8) := by decide
/-- `0 aaaaaaa`, a = 0x7F (V-B2). -/
theorem test_decode_bWregCmd :
    decodeTableWordIn (some ⟨.B, false, false, .ignore⟩) 8 0b01111111 = some (.bWregCmd 0x7F#8) := by decide
theorem test_decode_bDataWr :
    decodeTableWordIn (some ⟨.B, true, false, .write⟩) 8 0b10101010 = some (.bDataWr 0xAA#8) := by decide
theorem test_decode_bDataDiscard :
    decodeTableWordIn (some ⟨.B, true, false, .read⟩) 8 0b00000000 = some (.bDataDiscard 0x00#8) := by decide
theorem test_decode_cChar :
    decodeTableWordIn (some ⟨.C, false, false, .ignore⟩) 8 0b00100000 = some (.cChar 0x20#8) := by decide
theorem test_decode_rdFallback : decodeTableWordIn (some ⟨.A, false, false, .read⟩) 0 0 = some .rdFallback := by decide
theorem test_decode_rdStatus : decodeTableWordIn (some ⟨.B, true, false, .read⟩) 0 0 = some (.rdStatus .B) := by decide
theorem test_decode_rdData : decodeTableWordIn (some ⟨.B, true, true, .read⟩) 0 0 = some (.rdData .B) := by decide
theorem test_decode_refuses_bits_above_the_edge_word : decodeTableWordIn none 16 0b1000000000 = none := by decide
theorem test_decode_refuses_wide_words : decodeEvent [0x00#8, 0x00#8, 0x00#8] = .error .noSuchWidth := by rfl

/-! ## One step each, against the spec's examples -/

/-- R80's example: from NONE, SEL B. -/
theorem test_csAssert_selects :
    after (.csEdge 0x01#8 true) State.reset (fun t => t.active == some .B && !t.devB.apd && !t.devB.sas) = true := by decide
/-- W1a's last event: reselecting A clears both flags and keeps mode and address. -/
theorem test_csAssert_restarts :
    after (.csEdge 0x00#8 true) (busy .A true true .read 0x05#8 0x00#8)
      (fun t => !t.devA.apd && !t.devA.sas && t.devA.mode == .read && t.devA.readAddr == 0x05#8) = true := by decide
/-- V-CS3: deasserting another line. -/
theorem test_csDeassert_other_line :
    after (.csEdge 0x01#8 false) (busy .A true false .write 0x00#8 0x00#8) (fun t => t.active == some .A) = true := by decide
/-- V-CS2: deasserting the active line; its flags stay (R81). -/
theorem test_csDeassert_active_line :
    after (.csEdge 0x00#8 false) (busy .A true false .write 0x00#8 0x00#8) (fun t => t.active == none && t.devA.apd) = true := by
  decide
/-- R82's example: CS 7, 1 with C active. -/
theorem test_csUnknown_nothing :
    after (.csEdge 0x07#8 true) (busy .C false false .ignore 0x00#8 0x00#8) (fun t => t.active == some .C) = true := by decide
/-- W5b. -/
theorem test_wrNosel_latch : after (.drWrite 0x41#8) State.reset (fun t => t.latch == 0x41#8 && t.sink == []) = true := by decide
/-- R105's example, the opcode of C1. -/
theorem test_aRregCmd_opens_read :
    after (.drWrite 0x05#8) (busy .A false false .ignore 0x00#8 0x00#8)
      (fun t => t.devA.mode == .read && t.devA.readAddr == 0x05#8 && t.devA.apd) = true := by decide
/-- V-A4 and R90's latch update. -/
theorem test_aWregCmd_masks :
    after (.drWrite 0x3F#8) (busy .A false false .read 0x07#8 0x00#8)
      (fun t => t.devA.mode == .write && t.devA.writeAddr == 0x1F#8 && t.devA.readAddr == 0x07#8 && t.latch == 0x3F#8) = true := by
  decide
/-- W3's opcode. -/
theorem test_aIgnCmdLo_ignores :
    after (.drWrite 0x61#8) (busy .A false false .read 0x00#8 0x00#8) (fun t => t.devA.mode == .ignore && t.devA.apd) = true := by
  decide
/-- V-A7's opcode: the addresses stay. -/
theorem test_aIgnCmdHi_ignores :
    after (.drWrite 0xFF#8) (busy .A false false .read 0x03#8 0x04#8)
      (fun t => t.devA.mode == .ignore && t.devA.readAddr == 0x03#8 && t.devA.writeAddr == 0x04#8) = true := by decide
/-- W6a: the wrap at 0xFF. -/
theorem test_aDataWr_wraps :
    after (.drWrite 0x5C#8) (busy .A true false .write 0x00#8 0xFF#8)
      (fun t => t.memRead .A 0xFF#8 == 0x5C#8 && t.devA.writeAddr == 0x00#8) = true := by decide
/-- V-A8: no 5-bit wrap at 0x1F. -/
theorem test_aDataWr_runs_past_the_registers :
    after (.drWrite 0x01#8) (busy .A true false .write 0x00#8 0x1F#8)
      (fun t => t.memRead .A 0x1F#8 == 0x01#8 && t.devA.writeAddr == 0x20#8) = true := by decide
/-- V-A9. -/
theorem test_aDataDiscard_discards :
    after (.drWrite 0x55#8) (busy .A true false .read 0x02#8 0x00#8)
      (fun t => t.memRead .A 0x02#8 == 0x00#8 && t.devA.readAddr == 0x02#8 && t.latch == 0x55#8) = true := by decide
/-- V-B4: bit 7 kept. -/
theorem test_bRregCmd_keeps_bit7 :
    after (.drWrite 0xFF#8) (busy .B false false .ignore 0x00#8 0x00#8)
      (fun t => t.devB.mode == .read && t.devB.readAddr == 0xFF#8) = true := by decide
/-- R116's example: bit 7 forced set. -/
theorem test_bWregCmd_forces_bit7 :
    after (.drWrite 0x74#8) (busy .B false false .ignore 0x00#8 0x00#8)
      (fun t => t.devB.mode == .write && t.devB.writeAddr == 0xF4#8) = true := by decide
/-- V-B6: the seeded identity byte is overwritten. -/
theorem test_bDataWr_overwrites_seed :
    after (.drWrite 0x99#8) (busy .B true false .write 0x00#8 0xD0#8)
      (fun t => t.memRead .B 0xD0#8 == 0x99#8 && t.memRead .B 0xA1#8 == 0x4B#8 && t.devB.writeAddr == 0xD1#8) = true := by decide
/-- V-B7. -/
theorem test_bDataDiscard_discards :
    after (.drWrite 0x00#8) (busy .B true false .read 0xD0#8 0x00#8)
      (fun t => t.memRead .B 0xD0#8 == 0x60#8 && t.devB.readAddr == 0xD0#8) = true := by decide
/-- V-C3. -/
theorem test_cChar_emits : after (.drWrite 0xFF#8) (busy .C false false .ignore 0x00#8 0x00#8) (fun t => t.sink == [0xFF#8]) = true := by
  decide
/-- V-RI6: the read gap of R98 returns the backing cell. -/
theorem test_rdFallback_read_gap :
    after .drRead ((busy .A false false .read 0x05#8 0x00#8).setLatch 0x05#8)
      (fun t => t.readOut == some 0x05#8 && !t.devA.sas && t.devA.readAddr == 0x05#8) = true := by decide
/-- W4's first read: the status byte, not the seed byte 0x80. -/
theorem test_rdStatus_returns_zero :
    after .drRead (busy .B true false .read 0x88#8 0x00#8)
      (fun t => t.readOut == some 0x00#8 && t.devB.sas && t.devB.readAddr == 0x88#8) = true := by decide
/-- W4's second read. -/
theorem test_rdData_returns_seed_byte :
    after .drRead (busy .B true true .read 0x88#8 0x00#8)
      (fun t => t.readOut == some 0x80#8 && t.devB.readAddr == 0x89#8) = true := by decide
/-- V-RI10's last read: the read address wraps. -/
theorem test_rdData_wraps :
    after .drRead (busy .B true true .read 0xFF#8 0x00#8)
      (fun t => t.readOut == some 0x00#8 && t.devB.readAddr == 0x00#8) = true := by decide
/-- V-RI5: under UNSELECTED_ONLY a write to an active Device does not reach the backing cell. -/
theorem test_unselectedOnly_keeps_latch :
    after (.drWrite 0x99#8) { busy .A true false .write 0x00#8 0x05#8 with latchWritePolicy := .unselectedOnly }
      (fun t => t.latch == 0x00#8 && t.memRead .A 0x05#8 == 0x99#8) = true := by decide
/-- A presented table word runs as the first event after reset, where no Device is active (R70). -/
theorem test_withFetchWord_runs_first :
    (match step (State.reset.withFetchWord 8 0x25) with
      | .next t => t.latch == 0x25#8 && t.devA == State.reset.devA && t.events == []
      | .fault _ => false
      | .refused _ => false) = true := by decide

/-! ## A witness for every statement with hypotheses

Each shows a concrete state and operands that meet the hypotheses of the statement it is named after. -/

theorem test_witness_DecodeOfEncode :
    (Instr.bWregCmd 0x7F#8).wellFormed = true ∧ (Instr.bWregCmd 0x7F#8).inContext (some ⟨.B, false, false, .read⟩) = true := by
  decide
theorem test_witness_DecodedOperation :
    decode (some ⟨.A, false, false, .read⟩) [0x3F#8] = .ok (.aWregCmd 0x3F#8) := by rfl
theorem test_witness_StepPerforms :
    ({ State.reset with events := [.drWrite 0x41#8] } : State).events = .drWrite 0x41#8 :: [] ∧
    decode State.reset.context (Event.drWrite 0x41#8).bytes = .ok (.wrNosel 0x41#8) := ⟨rfl, rfl⟩
theorem test_witness_StepWithNoEvent : State.reset.events = [] := rfl
theorem test_witness_LaterEvents :
    ({ State.reset with events := [.drWrite 0x41#8] } : State).events ≠ [] ∧
    step { State.reset with events := [.drWrite 0x41#8] } = .next { State.reset with latch := 0x41#8 } := ⟨by decide, rfl⟩
theorem test_witness_CsAssert : deviceFor 0x02#8 = some .C ∧ DeviceId.A = .A ∧ DeviceId.B = .B := by decide
theorem test_witness_CsDeassert : deviceFor 0x00#8 = some .A ∧ (busy .A true false .read 0x00#8 0x00#8).active = some .A ∧
    State.reset.active ≠ some .A := by decide
theorem test_witness_CsUnknown : 3 ≤ (0x03#8 : Byte).toNat ∧ 3 ≤ (0xFF#8 : Byte).toNat := by decide
theorem test_witness_Edges : ({ State.reset with events := [evSel .A] } : State).events = .csEdge 0x00#8 true :: [] := rfl
theorem test_witness_LastAssertedLine :
    DeviceId.A ≠ .B ∧ (busy .A true false .write 0x00#8 0x00#8).active = some .A := by decide
theorem test_witness_Reselection : DeviceId.A ≠ .C ∧ DeviceId.B ≠ .C := by decide
theorem test_witness_FirstRead :
    (busy .B true false .read 0x88#8 0x00#8).active = some .B ∧ (busy .B true false .read 0x88#8 0x00#8).devB.apd = true ∧
    (busy .B true false .read 0x88#8 0x00#8).devB.mode = .read := by decide
theorem test_witness_OtherReads : Mode.write ≠ .read ∧ Mode.ignore ≠ .read := by decide
theorem test_witness_EveryWrite :
    ({ State.reset with events := [evWr 0x41#8] } : State).events = .drWrite 0x41#8 :: [] ∧
    State.reset.latchWritePolicy = .always := ⟨rfl, rfl⟩
theorem test_witness_ReadsNeverWrite : ({ State.reset with events := [evRd] } : State).events = .drRead :: [] := rfl
theorem test_witness_WritesTouchOnlyActive :
    ({ busy .C false false .ignore 0x00#8 0x00#8 with events := [evWr 0x41#8] } : State).events = .drWrite 0x41#8 :: [] ∧
    (busy .C false false .ignore 0x00#8 0x00#8).active ≠ some .A := ⟨rfl, by decide⟩
theorem test_witness_RadioRead : (0x00#8 : Byte).toNat < 0x20 ∧ (0x1F#8 : Byte).toNat < 0x20 := by decide
theorem test_witness_RadioWrite :
    (0x20 ≤ (0x20#8 : Byte).toNat ∧ (0x20#8 : Byte).toNat < 0x40) ∧ (0x20 ≤ (0x3F#8 : Byte).toNat ∧ (0x3F#8 : Byte).toNat < 0x40) := by
  decide
theorem test_witness_RadioIgnore :
    0x40 ≤ (0x40#8 : Byte).toNat ∧ 0x40 ≤ (0xFF#8 : Byte).toNat ∧ (busy .A false false .ignore 0x00#8 0x00#8).active = some .A := by
  decide
theorem test_witness_RadioDiscards : Mode.read = .read ∧ Mode.ignore = .ignore := ⟨rfl, rfl⟩
theorem test_witness_DataByte :
    (DeviceId.A = .A ∧ Instr.aDataWr 0x5C#8 = .aDataWr 0x5C#8) ∧ (DeviceId.B = .B ∧ Instr.bDataWr 0x5C#8 = .bDataWr 0x5C#8) := by
  decide
theorem test_witness_SensorRead : 0x80 ≤ (0x80#8 : Byte).toNat ∧ 0x80 ≤ (0xFF#8 : Byte).toNat := by decide
theorem test_witness_SensorWrite : (0x00#8 : Byte).toNat < 0x80 ∧ (0x7F#8 : Byte).toNat < 0x80 := by decide
theorem test_witness_SensorStarts :
    ({ busy .B false false .ignore 0x00#8 0x00#8 with events := [evWr 0x00#8] } : State).events = .drWrite 0x00#8 :: [] ∧
    (busy .B false false .ignore 0x00#8 0x00#8).active = some .B ∧
    ((busy .B false false .ignore 0x00#8 0x00#8).dev .B).apd = false := ⟨rfl, by decide, by decide⟩
theorem test_witness_SinkOnlyGrows :
    step { busy .C false false .ignore 0x00#8 0x00#8 with events := [evWr 0x41#8] } =
      .next { busy .C false false .ignore 0x00#8 0x00#8 with latch := 0x41#8, sink := [0x41#8] } := rfl
theorem test_witness_reset_with_C_active_meets_the_invariant :
    ({ State.reset with active := some .C, events := [evRd] } : State).Inv :=
  ⟨by intro d; cases d <;> decide, rfl, by decide, by intro d; cases d <;> decide⟩
theorem test_witness_RegisterFilesChange :
    step { busy .A true false .write 0x00#8 0x05#8 with events := [evWr 0x11#8] } =
      .next (({ busy .A true false .write 0x00#8 0x05#8 with latch := 0x11#8 } : State).storeData .A 0x11#8) ∧
    (({ busy .A true false .write 0x00#8 0x05#8 with latch := 0x11#8 } : State).storeData .A 0x11#8).memRead .A 0x05#8 ≠
      (busy .A true false .write 0x00#8 0x05#8).memRead .A 0x05#8 := ⟨rfl, by decide⟩
theorem test_witness_FlagsChange_sas :
    step { busy .A true false .read 0x05#8 0x00#8 with events := [evRd] } =
      .next { busy .A true true .read 0x05#8 0x00#8 with readOut := some 0x00#8 } := rfl
theorem test_witness_FlagsChange_apd :
    step { busy .A true false .read 0x88#8 0x00#8 with events := [evSel .A] } = .next (busy .A false false .read 0x88#8 0x00#8) := rfl
theorem test_witness_ModeAndAddresses :
    step { busy .A false false .ignore 0x00#8 0x00#8 with events := [evWr 0x25#8] } =
      .next { busy .A true false .write 0x00#8 0x05#8 with latch := 0x25#8 } := rfl
theorem test_witness_ModeAndAddresses_read :
    step { busy .A true true .read 0x05#8 0x00#8 with events := [evRd] } =
      .next { busy .A true true .read 0x06#8 0x00#8 with readOut := some 0x00#8 } := rfl
theorem test_witness_SelectionChanges :
    step { State.reset with events := [evSel .A] } = .next { State.reset with active := some .A } := rfl
theorem test_witness_BackingCellChanges :
    step { State.reset with events := [evWr 0x41#8] } = .next { State.reset with latch := 0x41#8 } := rfl
theorem test_witness_EveryStepKeeps_read :
    step { State.reset with active := some .C, events := [evRd] } =
      .next { State.reset with active := some .C, readOut := some 0x00#8 } := rfl
theorem test_witness_Canonical :
    Memory.wf [(5, 0x11#8), (6, 0x22#8)] = true ∧ (Memory.write (Memory.write [] 0x06#8 0x22#8) 0x05#8 0x11#8) = [(5, 0x11#8), (6, 0x22#8)] := by
  decide
/-- Reset and a state that kept another mode and other addresses in A and B are indistinguishable. -/
theorem test_witness_Indistinguishable :
    State.reset.Indistinguishable
      ((State.reset.updateDev .A fun dv => dv.openRead 0x05#8).updateDev .B fun dv => dv.openWrite 0x80#8) :=
  ⟨rfl, by intro d; cases d <;> rfl, rfl, rfl, rfl, rfl, rfl, by intro d h; cases h⟩
theorem test_witness_AssertionForgets :
    ∀ e, (State.reset.dev e).mem = ((busy .A true true .read 0x05#8 0x07#8).dev e).mem := by
  intro e; cases e <;> rfl
theorem test_witness_ReadTransaction :
    DeviceId.B ≠ .C ∧ (busy .B true false .read 0xFE#8 0x00#8).active = some .B ∧
    ((busy .B true false .read 0xFE#8 0x00#8).dev .B).apd = true ∧ ((busy .B true false .read 0xFE#8 0x00#8).dev .B).sas = false ∧
    ((busy .B true false .read 0xFE#8 0x00#8).dev .B).mode = .read ∧
    (∀ e ∈ [evRd, evWr 0x77#8, evRd], e = .drRead ∨ ∃ b, e = .drWrite b) := by
  refine ⟨by decide, by decide, by decide, by decide, by decide, ?_⟩
  simp [evRd, evWr]
theorem test_witness_WriteRun :
    DeviceId.A ≠ .C ∧ (busy .A true false .write 0x00#8 0xFF#8).active = some .A ∧
    ((busy .A true false .write 0x00#8 0xFF#8).dev .A).apd = true ∧ ((busy .A true false .write 0x00#8 0xFF#8).dev .A).mode = .write ∧
    [(0xEE#8 : Byte), 0xEF#8].length ≤ 256 := by decide
theorem test_witness_ReadBack : (0x1F#8 : Byte).toNat < 0x20 ∧ 0x80 ≤ (0x80#8 : Byte).toNat := by decide
theorem test_witness_ResetSeeds : ((0xD0#8, 0x60#8) : Byte × Byte) ∈ seedBytes ∧ (0x00#8 : Byte) ∉ seedBytes.map Prod.fst ∧
    (DeviceId.A ≠ .B) := by decide

end Sys2Proof.Tests
end

section
/-! SUPPORT. The step read forwards, one rule per way it can go, and backwards, one inversion per part of the state: a
Device's fields, and the three fields outside the Devices.  The claims about who writes what are read off the inversions. -/

namespace Sys2Proof.Machine

/-! ## Opcodes and data bytes as changes of one Device -/

/-- An opcode of a register-file Device opens a Read, a Write or, on Device A only, an Ignore transaction. -/
theorem openingOf_cases {d : DeviceId} (b : Byte) (hC : d ≠ .C) :
    (∀ dv, openingOf d b dv = dv.openRead b) ∨ (∃ a, ∀ dv, openingOf d b dv = dv.openWrite a) ∨
    (d = .A ∧ ∀ dv, openingOf d b dv = dv.openIgnore) := by
  cases d with
  | A =>
    by_cases hr : b.toNat < 0x20
    · exact .inl fun dv => if_pos hr
    · by_cases hw : b.toNat < 0x40
      · exact .inr (.inl ⟨radioWriteAddr b, fun dv => (if_neg hr).trans (if_pos hw)⟩)
      · exact .inr (.inr ⟨rfl, fun dv => (if_neg hr).trans (if_neg hw)⟩)
  | B =>
    by_cases hr : b.getLsbD 7 = true
    · exact .inl fun dv => if_pos hr
    · exact .inr (.inl ⟨sensorWriteAddr b, fun dv => if_neg hr⟩)
  | C => exact absurd rfl hC

/-- What a stored data byte does to its Device (R108, R117). -/
def Device.storeByte (b : Byte) (dv : Device) : Device :=
  { dv with mem := dv.mem.write dv.writeAddr b, writeAddr := inc8 dv.writeAddr }

@[simp] theorem Device.storeByte_mem (b : Byte) (dv : Device) : (dv.storeByte b).mem = dv.mem.write dv.writeAddr b := rfl
@[simp] theorem Device.storeByte_readAddr (b : Byte) (dv : Device) : (dv.storeByte b).readAddr = dv.readAddr := rfl
@[simp] theorem Device.storeByte_writeAddr (b : Byte) (dv : Device) : (dv.storeByte b).writeAddr = inc8 dv.writeAddr := rfl
@[simp] theorem Device.storeByte_apd (b : Byte) (dv : Device) : (dv.storeByte b).apd = dv.apd := rfl
@[simp] theorem Device.storeByte_sas (b : Byte) (dv : Device) : (dv.storeByte b).sas = dv.sas := rfl
@[simp] theorem Device.storeByte_mode (b : Byte) (dv : Device) : (dv.storeByte b).mode = dv.mode := rfl

/-- Storing a data byte is a change of its Device alone. -/
theorem State.storeData_eq_updateDev (s : State) (d : DeviceId) (b : Byte) :
    s.storeData d b = s.updateDev d (Device.storeByte b) := by
  cases d <;> rfl

/-! ## The step forwards -/

section Rules
variable {s : State} {rest : List Event} {n b : Byte} {d : DeviceId}

theorem step_assert (he : s.events = .csEdge n true :: rest) (hn : deviceFor n = some d) :
    step s = .next ((s.takeEvent.setActive (some d)).updateDev d Device.clearFlags) := by
  simp only [step_event he, dispatch, dispatchEdge, hn]
  rfl

theorem step_deassert (he : s.events = .csEdge n false :: rest) (hn : deviceFor n = some d) :
    step s = .next (if s.active = some d then s.takeEvent.setActive none else s.takeEvent) := by
  simp only [step_event he, dispatch, dispatchEdge, hn]
  rfl

theorem step_unknown_line {v : Bool} (he : s.events = .csEdge n v :: rest) (hn : deviceFor n = none) :
    step s = .next s.takeEvent := by
  simp only [step_event he, dispatch, dispatchEdge, hn]
  rfl

theorem step_write_unselected (he : s.events = .drWrite b :: rest) (ha : s.active = none) :
    step s = .next (s.takeEvent.setLatch b) := by
  rw [step_event he, dispatch, State.context_none ha]
  rfl

/-! In the next three rules the state rules out all outcomes of a write but one. -/

theorem step_write_opens (he : s.events = .drWrite b :: rest) (ha : s.active = some d) (hC : d ≠ .C)
    (hp : (s.dev d).apd = false) : step s = .next ((s.takeEvent.latchWrite b).updateDev d (openingOf d b)) := by
  rw [step_event he, dispatch]
  rcases execWrite_cases s s.takeEvent b with h | ⟨e, h⟩ | h | h | h <;> simp_all

theorem step_write_stores (he : s.events = .drWrite b :: rest) (ha : s.active = some d) (hC : d ≠ .C)
    (hp : (s.dev d).apd = true) (hm : (s.dev d).mode = .write) :
    step s = .next ((s.takeEvent.latchWrite b).updateDev d (Device.storeByte b)) := by
  rw [step_event he, dispatch, ← State.storeData_eq_updateDev]
  rcases execWrite_cases s s.takeEvent b with h | h | ⟨e, h⟩ | h | h <;> simp_all

theorem step_write_discards (he : s.events = .drWrite b :: rest) (ha : s.active = some d) (hC : d ≠ .C)
    (hp : (s.dev d).apd = true) (hm : (s.dev d).mode ≠ .write) : step s = .next (s.takeEvent.latchWrite b) := by
  rw [step_event he, dispatch]
  rcases execWrite_cases s s.takeEvent b with h | h | h | ⟨e, h⟩ | h <;> simp_all

theorem step_write_emits (he : s.events = .drWrite b :: rest) (ha : s.active = some .C) :
    step s = .next ((s.takeEvent.latchWrite b).emit b) := by
  rw [step_event he, dispatch, State.context_some ha]
  rfl

theorem step_read_fallback (he : s.events = .drRead :: rest)
    (hf : ∀ d, s.active = some d → (s.dev d).mode = .read → (s.dev d).apd = false) :
    step s = .next (s.takeEvent.returnByte s.latch) := by
  rw [step_event he, dispatch]
  rcases dispatchRead_cases s with ⟨h, -⟩ | ⟨d, ha, hm, hp, -⟩ | ⟨d, ha, hm, hp, -⟩
  · rw [h]; rfl
  · simp [hf d ha hm] at hp
  · simp [hf d ha hm] at hp

theorem step_read_status (he : s.events = .drRead :: rest) (ha : s.active = some d) (hm : (s.dev d).mode = .read)
    (hp : (s.dev d).apd = true) (hs : (s.dev d).sas = false) :
    step s = .next ((s.takeEvent.updateDev d Device.setSas).returnByte Config.statusByte) := by
  rw [step_event he, dispatch, State.context_some ha, hm, hp, hs]
  rfl

theorem step_read_data (he : s.events = .drRead :: rest) (ha : s.active = some d) (hm : (s.dev d).mode = .read)
    (hp : (s.dev d).apd = true) (hs : (s.dev d).sas = true) :
    step s = .next ((s.takeEvent.updateDev d Device.advanceRead).returnByte (s.memRead d (s.dev d).readAddr)) := by
  rw [step_event he, dispatch, State.context_some ha, hm, hp, hs]
  cases d <;> rfl

end Rules

/-! ## The step backwards -/

/-- What a step from `s` to `t` can have done to Device `d`, and by which event. -/
inductive DeviceChange (s t : State) (d : DeviceId) : Prop
  | kept (ht : t.dev d = s.dev d)
  | asserted (n : Byte) (rest : List Event) (he : s.events = .csEdge n true :: rest) (hn : deviceFor n = some d)
      (ht : t.dev d = (s.dev d).clearFlags)
  | opened (b : Byte) (rest : List Event) (he : s.events = .drWrite b :: rest) (ha : s.active = some d) (hC : d ≠ .C)
      (hp : (s.dev d).apd = false) (ht : t.dev d = openingOf d b (s.dev d))
  | stored (b : Byte) (rest : List Event) (he : s.events = .drWrite b :: rest) (ha : s.active = some d) (hC : d ≠ .C)
      (hp : (s.dev d).apd = true) (hm : (s.dev d).mode = .write) (ht : t.dev d = (s.dev d).storeByte b)
  | statusSent (rest : List Event) (he : s.events = .drRead :: rest) (ha : s.active = some d)
      (hm : (s.dev d).mode = .read) (hp : (s.dev d).apd = true) (hr : t.readOut = some 0x00#8)
      (ht : t.dev d = (s.dev d).setSas)
  | dataRead (rest : List Event) (he : s.events = .drRead :: rest) (ha : s.active = some d)
      (hm : (s.dev d).mode = .read) (hp : (s.dev d).apd = true) (hs : (s.dev d).sas = true)
      (ht : t.dev d = (s.dev d).advanceRead)

theorem step_deviceChange {s t : State} (h : step s = .next t) (d : DeviceId) : DeviceChange s t d := by
  rcases step_cases h with ⟨-, rfl⟩ | ⟨n, v, rest, he, hedge⟩ | ⟨b, rest, he, hwrite⟩ | ⟨rest, he, hread⟩
  · exact .kept rfl
  · rcases hedge with ⟨e, hn, rfl, rfl⟩ | ⟨e, -, -, -, rfl⟩ | rfl
    · by_cases hd : d = e
      · subst hd
        exact .asserted n rest he hn (by simp)
      · exact .kept (by simp [State.dev_updateDev, hd])
    · exact .kept (by simp)
    · exact .kept (by simp)
  · rcases hwrite with ⟨-, rfl⟩ | ⟨e, ha, hC, hp, rfl⟩ | ⟨e, ha, hC, hp, hm, rfl⟩ | ⟨e, -, -, -, -, rfl⟩ | ⟨-, rfl⟩
    · exact .kept (by simp)
    · by_cases hd : d = e
      · subst hd
        exact .opened b rest he ha hC hp (by simp)
      · exact .kept (by simp [State.dev_updateDev, hd])
    · rw [State.storeData_eq_updateDev]
      by_cases hd : d = e
      · subst hd
        exact .stored b rest he ha hC hp hm (by simp)
      · exact .kept (by simp [State.dev_updateDev, hd])
    · exact .kept (by simp)
    · exact .kept (by simp)
  · rcases hread with ⟨-, rfl⟩ | ⟨e, ha, hm, hp, -, rfl⟩ | ⟨e, ha, hm, hp, hs, rfl⟩
    · exact .kept (by simp)
    · by_cases hd : d = e
      · subst hd
        exact .statusSent rest he ha hm hp rfl (by simp)
      · exact .kept (by simp [State.dev_updateDev, hd])
    · by_cases hd : d = e
      · subst hd
        exact .dataRead rest he ha hm hp hs (by simp [State.loadData])
      · exact .kept (by simp [State.loadData, State.dev_updateDev, hd])

/-- What a step from `s` to `t` can have done to the selection, the backing cell and the sink, and by which event. -/
inductive OutsideChange (s t : State) : Prop
  | kept (ha : t.active = s.active) (hl : t.latch = s.latch) (hs : t.sink = s.sink)
  | selected (n : Byte) (rest : List Event) (d : DeviceId) (he : s.events = .csEdge n true :: rest)
      (hn : deviceFor n = some d) (ha : t.active = some d) (hl : t.latch = s.latch) (hs : t.sink = s.sink)
  | deselected (n : Byte) (rest : List Event) (d : DeviceId) (he : s.events = .csEdge n false :: rest)
      (hn : deviceFor n = some d) (hd : s.active = some d) (ha : t.active = none) (hl : t.latch = s.latch)
      (hs : t.sink = s.sink)
  | written (b : Byte) (rest : List Event) (he : s.events = .drWrite b :: rest) (ha : t.active = s.active)
      (hl : t.latch = b ∨ t.latch = s.latch)
      (hs : t.sink = s.sink ∨ s.active = some .C ∧ t.sink = s.sink ++ [b])

/-- The latch update leaves the byte or the old backing cell. -/
theorem State.latchWrite_latch_cases (s : State) (b : Byte) :
    (s.latchWrite b).latch = b ∨ (s.latchWrite b).latch = s.latch := by
  rw [State.latchWrite_latch]
  exact ite_eq_or_eq ..

theorem step_outsideChange {s t : State} (h : step s = .next t) : OutsideChange s t := by
  rcases step_cases h with ⟨-, rfl⟩ | ⟨n, v, rest, he, hedge⟩ | ⟨b, rest, he, hwrite⟩ | ⟨rest, he, hread⟩
  · exact .kept rfl rfl rfl
  · rcases hedge with ⟨d, hn, rfl, rfl⟩ | ⟨d, hn, rfl, hd, rfl⟩ | rfl
    · exact .selected n rest d he hn (by simp) (by simp) (by simp)
    · exact .deselected n rest d he hn hd rfl rfl rfl
    · exact .kept rfl rfl rfl
  · have hlatch := s.takeEvent.latchWrite_latch_cases b
    rcases hwrite with ⟨-, rfl⟩ | ⟨d, -, -, -, rfl⟩ | ⟨d, -, -, -, -, rfl⟩ | ⟨d, -, -, -, -, rfl⟩ | ⟨hC, rfl⟩
    · exact .written b rest he rfl (.inl rfl) (.inl rfl)
    · exact .written b rest he (by simp) (by simpa using hlatch) (.inl (by simp))
    · exact .written b rest he (by simp) (by simpa using hlatch) (.inl (by simp))
    · exact .written b rest he (by simp) hlatch (.inl (by simp))
    · exact .written b rest he (by simp) hlatch (.inr ⟨hC, by simp⟩)
  · rcases hread with ⟨-, rfl⟩ | ⟨d, -, -, -, -, rfl⟩ | ⟨d, -, -, -, -, rfl⟩
    · exact .kept rfl rfl rfl
    · exact .kept (by simp) (by simp) (by simp)
    · exact .kept (by simp) (by simp) (by simp)

end Sys2Proof.Machine
end

section
/-! SUPPORT. Who writes what (10_state.md): the sink, the register files, the flags, the mode and the addresses, the
selection and the backing cell. -/

namespace Sys2Proof.Machine

/-- Settles O6: an event's bytes decode to what the step dispatches. -/
theorem stepPerformsTheDecodedOperation : Obligations.StepPerformsTheDecodedOperation := by
  intro s e rest i he hdecode
  rw [decode_bytes] at hdecode
  cases hdecode
  rw [step_event he, State.takeEvent, he, List.tail_cons]

/-- Settles O51, code by code. -/
theorem modeAndSelectionCodesAreDistinct : Obligations.ModeAndSelectionCodesAreDistinct := by
  refine ⟨fun m n h => ?_, fun m => by cases m <;> decide, fun a b h => ?_⟩
  · cases m <;> cases n <;> simp [modeCode] at h ⊢
  · rcases a with _ | _ | _ | _ <;> rcases b with _ | _ | _ | _ <;> simp [activeCode] at h ⊢

/-- Settles O33: only a write appends to the sink, and only with C active. -/
theorem sinkOnlyGrowsByBytesWrittenToC : Obligations.SinkOnlyGrowsByBytesWrittenToC := by
  intro s t h
  cases step_outsideChange h with
  | kept _ _ hs => exact .inl hs
  | selected _ _ _ _ _ _ _ hs => exact .inl hs
  | deselected _ _ _ _ _ _ _ _ hs => exact .inl hs
  | written b rest he _ _ hs => exact hs.imp_right fun ⟨hC, hs⟩ => ⟨b, rest, he, hC, hs⟩

/-- Settles O35: of the changes of a Device only the stored data byte touches its register file. -/
theorem registerFilesChangeOnlyByDataBytes : Obligations.RegisterFilesChangeOnlyByDataBytes := by
  intro s t d x h hne
  unfold State.memRead at hne ⊢
  cases step_deviceChange h d with
  | kept ht => simp [ht] at hne
  | asserted n rest he hn ht => simp [ht] at hne
  | opened b rest he ha hC hp ht => simp [ht] at hne
  | statusSent rest he ha hm hp hr ht => simp [ht] at hne
  | dataRead rest he ha hm hp hs ht => simp [ht] at hne
  | stored b rest he ha hC hp hm ht =>
    have hx : x = (s.dev d).writeAddr := by
      by_contra hx
      simp [ht, Memory.read_write_other _ _ hx] at hne
    exact ⟨b, rest, he, ha, hC, hp, hm, hx, by simp [ht, hx]⟩

/-- Settles O36, change by change: an assertion writes both flags, an opcode `apd`, the status read `sas`. -/
theorem flagsChangeOnlyByAssertionOpcodeAndStatusRead : Obligations.FlagsChangeOnlyByAssertionOpcodeAndStatusRead := by
  intro s t d h
  cases step_deviceChange h d with
  | kept ht => simp [ht]
  | asserted n rest he hn ht =>
    exact ⟨fun _ => .inl ⟨n, rest, he, hn, by simp [ht]⟩, fun _ => .inl ⟨n, rest, he, hn, by simp [ht]⟩⟩
  | opened b rest he ha hC hp ht =>
    exact ⟨fun _ => .inr ⟨b, rest, he, ha, hC, by rw [ht, openingOf_apd b _ hC]⟩, fun hne => by simp [ht] at hne⟩
  | stored b rest he ha hC hp hm ht => simp [ht]
  | statusSent rest he ha hm hp hr ht =>
    exact ⟨fun hne => by simp [ht] at hne, fun _ => .inr ⟨rest, he, ha, hm, hp, hr, by simp [ht]⟩⟩
  | dataRead rest he ha hm hp hs ht => simp [ht]

/-- Settles O37, change by change: an opcode writes the mode and one address, a data byte advances its address. -/
theorem modeAndAddressesChangeOnlyByTheirRules : Obligations.ModeAndAddressesChangeOnlyByTheirRules := by
  intro s t d h
  cases step_deviceChange h d with
  | kept ht => simp [ht]
  | asserted n rest he hn ht => simp [ht]
  | statusSent rest he ha hm hp hr ht => simp [ht]
  | opened b rest he ha hC hp ht =>
    refine ⟨fun _ => ⟨b, rest, he, ha, hC, hp⟩, fun hne => .inl ⟨b, rest, he, ha, hC, hp, ?_⟩,
      fun hne => .inl ⟨b, rest, he, ha, hC, hp, ?_⟩⟩
    all_goals
      rw [ht] at hne ⊢
      rcases openingOf_cases b hC with ho | ⟨a, ho⟩ | ⟨-, ho⟩ <;> simp [ho] at hne ⊢
  | stored b rest he ha hC hp hm ht =>
    refine ⟨fun hne => by simp [ht] at hne, fun hne => by simp [ht] at hne, fun _ => .inr ?_⟩
    exact ⟨b, rest, he, ha, hC, hp, hm, by simp [ht, inc8]⟩
  | dataRead rest he ha hm hp hs ht =>
    refine ⟨fun hne => by simp [ht] at hne, fun _ => .inr ?_, fun hne => by simp [ht] at hne⟩
    exact ⟨rest, he, ha, hm, hp, hs, by simp [ht, inc8]⟩

/-- Settles O38: a known line's edge writes only the selection, a write only the backing cell and the sink. -/
theorem selectionAndBackingCellChangeOnlyByTheirRules : Obligations.SelectionAndBackingCellChangeOnlyByTheirRules := by
  intro s t h
  cases step_outsideChange h with
  | kept ha hl _ => exact ⟨fun hne => absurd ha hne, fun hne => absurd hl hne⟩
  | selected n rest d he hn ha hl _ =>
    exact ⟨fun _ => ⟨n, true, rest, d, he, hn, .inl ⟨rfl, ha⟩⟩, fun hne => absurd hl hne⟩
  | deselected n rest d he hn hd ha hl _ =>
    exact ⟨fun _ => ⟨n, false, rest, d, he, hn, .inr ⟨rfl, hd, ha⟩⟩, fun hne => absurd hl hne⟩
  | written b rest he ha hl _ =>
    exact ⟨fun hne => absurd ha hne, fun hne => ⟨b, rest, he, hl.resolve_right hne⟩⟩

end Sys2Proof.Machine
end

section
/-! SUPPORT. The invariant of the block, clause by clause, each read off the change of one Device. -/

namespace Sys2Proof.Machine

section Clauses
variable {s t : State} (h : step s = .next t)
include h

theorem step_keeps_memWf {d : DeviceId} (hwf : (s.dev d).mem.wf = true) : (t.dev d).mem.wf = true := by
  cases step_deviceChange h d with
  | kept ht => rwa [ht]
  | asserted _ _ _ _ ht => simpa [ht] using hwf
  | opened _ _ _ _ _ _ ht => simpa [ht] using hwf
  | stored _ _ _ _ _ _ _ ht => simpa [ht] using Memory.wf_write _ _ hwf
  | statusSent _ _ _ _ _ _ ht => simpa [ht] using hwf
  | dataRead _ _ _ _ _ _ ht => simpa [ht] using hwf

/-- Device C as created is never in Read mode, so no read can change it, and no write changes Device C. -/
theorem step_keeps_passthroughUntouched (hC : s.dev .C = Device.created []) : t.dev .C = Device.created [] := by
  have hmode : (s.dev .C).mode ≠ .read := by simp [hC, Device.created]
  cases step_deviceChange h .C with
  | kept ht => rwa [ht]
  | asserted _ _ _ _ ht => rw [ht, hC]; rfl
  | opened _ _ _ _ hne _ _ => exact absurd rfl hne
  | stored _ _ _ _ hne _ _ _ => exact absurd rfl hne
  | statusSent _ _ _ hm _ _ _ => exact absurd hm hmode
  | dataRead _ _ _ hm _ _ _ => exact absurd hm hmode

/-- No opcode of Device B opens an Ignore transaction (R120). -/
theorem step_keeps_sensorNeverIgnores (hB : (s.dev .B).apd = true → (s.dev .B).mode ≠ .ignore) :
    (t.dev .B).apd = true → (t.dev .B).mode ≠ .ignore := by
  cases step_deviceChange h .B with
  | kept ht => rwa [ht]
  | asserted _ _ _ _ ht => simp [ht]
  | opened b _ _ _ hC _ ht =>
    rcases openingOf_cases b hC with ho | ⟨a, ho⟩ | ⟨hA, -⟩
    · simp [ht, ho]
    · simp [ht, ho]
    · cases hA
  | stored _ _ _ _ _ _ _ ht => simpa [ht] using hB
  | statusSent _ _ _ _ _ _ ht => simpa [ht] using hB
  | dataRead _ _ _ _ _ _ ht => simpa [ht] using hB

/-- An opcode finds `sas` clear, since `apd` is, and leaves it so; the status read happens in Read mode only (R95). -/
theorem step_keeps_statusOnlyInRead {d : DeviceId}
    (hS : (s.dev d).sas = true → (s.dev d).apd = true ∧ (s.dev d).mode = .read) :
    (t.dev d).sas = true → (t.dev d).apd = true ∧ (t.dev d).mode = .read := by
  cases step_deviceChange h d with
  | kept ht => rwa [ht]
  | asserted _ _ _ _ ht => simp [ht]
  | opened _ _ _ _ _ hp ht =>
    have hclear : (s.dev d).sas = false := by simpa [hp] using hS
    simp [ht, hclear]
  | stored _ _ _ _ _ _ _ ht => simpa [ht] using hS
  | statusSent _ _ _ hm hp _ ht => simp [ht, hm, hp]
  | dataRead _ _ _ _ _ _ ht => simpa [ht] using hS

end Clauses

/-- Settles O40, clause by clause. -/
theorem everyStepKeepsTheInvariant : Obligations.EveryStepKeepsTheInvariant :=
  fun _ _ hInv h =>
    { memWf := fun d => step_keeps_memWf h (hInv.memWf d)
      passthroughUntouched := step_keeps_passthroughUntouched h hInv.passthroughUntouched
      sensorNeverIgnores := step_keeps_sensorNeverIgnores h hInv.sensorNeverIgnores
      statusOnlyInRead := fun d => step_keeps_statusOnlyInRead h (hInv.statusOnlyInRead d) }

end Sys2Proof.Machine
end

section
/-! SUPPORT. Register files as data: the canonical form has one list per content. -/

namespace Sys2Proof.Machine

/-- Below its first key a canonical register file lists nothing. -/
theorem Memory.get_of_lt_risingFrom {m : Memory} {lo a : Nat} (h : m.risingFrom lo = true) (ha : a < lo) :
    m.get a = Config.memInit := by
  induction m generalizing lo with
  | nil => rfl
  | cons cell rest ih =>
    obtain ⟨k, x⟩ := cell
    simp only [Memory.risingFrom, Bool.and_eq_true, decide_eq_true_eq] at h
    rw [Memory.get, if_neg (by omega)]
    exact ih h.2 (by omega)

theorem Memory.get_of_not_listed {m : Memory} {a : Nat} (h : ∀ cell ∈ m, cell.1 ≠ a) : m.get a = Config.memInit := by
  induction m with
  | nil => rfl
  | cons cell rest ih =>
    obtain ⟨k, x⟩ := cell
    rw [Memory.get, if_neg (h (k, x) (by simp)).symm]
    exact ih fun c hc => h c (by simp [hc])

@[simp] theorem Memory.get_cons_same (k : Nat) (x : Byte) (rest : Memory) : Memory.get ((k, x) :: rest) k = x :=
  if_pos rfl

theorem Memory.get_cons_other {k a : Nat} (x : Byte) (rest : Memory) (h : a ≠ k) :
    Memory.get ((k, x) :: rest) a = rest.get a :=
  if_neg h

/-- Where a canonical register file reads another byte than `memInit`, its first key is not greater. -/
theorem Memory.first_key_le {k a : Nat} {x : Byte} {rest : Memory} (h : rest.risingFrom (k + 1) = true)
    (ha : Memory.get ((k, x) :: rest) a ≠ Config.memInit) : k ≤ a := by
  by_contra hlt
  rw [Memory.get_cons_other _ _ (by omega)] at ha
  exact ha (Memory.get_of_lt_risingFrom h (by omega))

/-- With rising keys and no cell that holds `memInit`, the bytes at all keys determine the list. -/
theorem Memory.eq_of_get_eq {m n : Memory} {lo lo' : Nat} (hm : m.risingFrom lo = true) (hn : n.risingFrom lo' = true)
    (hmv : ∀ cell ∈ m, cell.2 ≠ Config.memInit) (hnv : ∀ cell ∈ n, cell.2 ≠ Config.memInit)
    (h : ∀ a, m.get a = n.get a) : m = n := by
  induction m generalizing n lo lo' with
  | nil =>
    cases n with
    | nil => rfl
    | cons cell rest =>
      obtain ⟨k, x⟩ := cell
      exact absurd (by simpa [Memory.get] using (h k).symm) (hnv (k, x) (by simp))
  | cons cell rest ih =>
    obtain ⟨k, x⟩ := cell
    cases n with
    | nil => exact absurd (by simpa [Memory.get] using h k) (hmv (k, x) (by simp))
    | cons cell' rest' =>
      obtain ⟨k', x'⟩ := cell'
      simp only [Memory.risingFrom, Bool.and_eq_true] at hm hn
      simp only [List.forall_mem_cons] at hmv hnv
      have hk : k = k' := Nat.le_antisymm
        (Memory.first_key_le hm.2 (by rw [h k', Memory.get_cons_same]; exact hnv.1))
        (Memory.first_key_le hn.2 (by rw [← h k, Memory.get_cons_same]; exact hmv.1))
      subst hk
      have hx : x = x' := by simpa using h k
      have hrest : rest = rest' := by
        refine ih hm.2 hn.2 hmv.2 hnv.2 fun a => ?_
        by_cases ha : a = k
        · rw [ha, Memory.get_of_lt_risingFrom hm.2 (by omega), Memory.get_of_lt_risingFrom hn.2 (by omega)]
        · simpa [Memory.get_cons_other _ _ ha] using h a
      rw [hx, hrest]

/-- Settles O41: the bytes agree at every key, since neither list has a key outside the register file. -/
theorem canonicalRegisterFilesThatReadAlikeAreEqual : Obligations.CanonicalRegisterFilesThatReadAlikeAreEqual := by
  intro m n hm hn h
  simp only [Memory.wf, Bool.and_eq_true, List.all_eq_true, decide_eq_true_eq, bne_iff_ne] at hm hn
  obtain ⟨hmr, hmc⟩ := hm
  obtain ⟨hnr, hnc⟩ := hn
  refine Memory.eq_of_get_eq hmr hnr (fun c hc => (hmc c hc).2) (fun c hc => (hnc c hc).2) fun a => ?_
  by_cases ha : a < Config.memSize
  · simpa [Memory.read, Nat.mod_eq_of_lt (show a < 256 from ha)] using h (BitVec.ofNat 8 a)
  · rw [Memory.get_of_not_listed fun c hc => (by have := (hmc c hc).1; omega),
      Memory.get_of_not_listed fun c hc => (by have := (hnc c hc).1; omega)]

end Sys2Proof.Machine
end

section
/-! SUPPORT. What the interface cannot show (R28, R29, R37): every operation keeps two states indistinguishable, and a step of
both takes the same operation. -/

namespace Sys2Proof.Machine

/-! ## The active Device's transaction -/

namespace Device.SameTransaction
variable {p q : Device}

/-- Two Devices an assertion has just cleared (R80). -/
theorem clearFlags (p q : Device) : p.clearFlags.SameTransaction q.clearFlags :=
  { apd := rfl, fresh := fun _ => rfl, mode := nofun, read := nofun, write := nofun }

/-- An opcode sets the mode and the one address the mode uses, so nothing older counts (R29). -/
theorem opening (h : p.SameTransaction q) {d : DeviceId} (b : Byte) (hC : d ≠ .C) (hp : p.apd = false) :
    (openingOf d b p).SameTransaction (openingOf d b q) := by
  have hsas := h.fresh hp
  rcases openingOf_cases b hC with ho | ⟨a, ho⟩ | ⟨-, ho⟩ <;> rw [ho, ho] <;> constructor <;> simp [hsas]

theorem storeByte (h : p.SameTransaction q) (b : Byte) (hp : p.apd = true) (hm : p.mode = .write) :
    (p.storeByte b).SameTransaction (q.storeByte b) :=
  { h with write := fun _ _ => congrArg inc8 (h.write hp hm) }

theorem setSas (h : p.SameTransaction q) : p.setSas.SameTransaction q.setSas :=
  { h with fresh := fun _ => rfl, read := fun hp hm => ⟨rfl, (h.read hp hm).2⟩ }

theorem advanceRead (h : p.SameTransaction q) : p.advanceRead.SameTransaction q.advanceRead :=
  { h with read := fun hp hm => (h.read hp hm).imp_right (congrArg inc8) }

end Device.SameTransaction

/-! ## The operations -/

/-- Settles O44: the assertion clears what the transaction can still show. -/
theorem assertionForgetsEarlierTransactions : Obligations.AssertionForgetsEarlierTransactions := by
  intro s t d hmem hlatch hsink hpolicy hevents hreadOut
  refine ⟨_, _, rfl, rfl, ?_⟩
  constructor
  case active => simp
  case mem => intro e; by_cases he : e = d <;> simp [State.dev_updateDev, he, hmem]
  case transaction =>
    intro e he
    obtain rfl : d = e := by simpa using he
    simp [Device.SameTransaction.clearFlags]
  all_goals simpa

namespace State.Indistinguishable
variable {s t : State} {d : DeviceId}

theorem takeEvent (h : s.Indistinguishable t) : s.takeEvent.Indistinguishable t.takeEvent :=
  { h with events := congrArg List.tail h.events, readOut := rfl }

theorem deselect (h : s.Indistinguishable t) : (s.setActive none).Indistinguishable (t.setActive none) :=
  { h with active := rfl, transaction := nofun }

theorem setLatch (h : s.Indistinguishable t) (b : Byte) : (s.setLatch b).Indistinguishable (t.setLatch b) :=
  { h with latch := rfl }

theorem latchWrite (h : s.Indistinguishable t) (b : Byte) : (s.latchWrite b).Indistinguishable (t.latchWrite b) := by
  unfold State.latchWrite
  rw [← h.policy, ← h.active]
  split
  · exact h.setLatch b
  · exact h

theorem emit (h : s.Indistinguishable t) (b : Byte) : (s.emit b).Indistinguishable (t.emit b) :=
  { h with sink := congrArg (· ++ [b]) h.sink }

theorem returnByte (h : s.Indistinguishable t) (b : Byte) : (s.returnByte b).Indistinguishable (t.returnByte b) :=
  { h with readOut := rfl }

/-- The same change of the active Device, if it keeps the Device's register files and transactions alike. -/
theorem updateActive (h : s.Indistinguishable t) (ha : s.active = some d) {f : Device → Device}
    (hmem : (f (s.dev d)).mem = (f (t.dev d)).mem) (htr : (f (s.dev d)).SameTransaction (f (t.dev d))) :
    (s.updateDev d f).Indistinguishable (t.updateDev d f) := by
  constructor
  case mem => intro e; by_cases he : e = d <;> simp [State.dev_updateDev, he, hmem, h.mem]
  case transaction =>
    intro e he
    obtain rfl : d = e := by simpa [ha] using he
    simpa using htr
  all_goals simp [h.active, h.latch, h.sink, h.policy, h.events, h.readOut]

/-! ## The step -/

/-- Both states step, and to indistinguishable states. -/
def StepsAlike (s t : State) : Prop :=
  ∃ s' t', step s = .next s' ∧ step t = .next t' ∧ s'.Indistinguishable t'

theorem step_edge (h : s.Indistinguishable t) {n : Byte} {v : Bool} {rest : List Event}
    (he : s.events = .csEdge n v :: rest) : StepsAlike s t := by
  have he' : t.events = .csEdge n v :: rest := h.events ▸ he
  cases hn : deviceFor n with
  | none => exact ⟨_, _, step_unknown_line he hn, step_unknown_line he' hn, h.takeEvent⟩
  | some d =>
    cases v with
    | true =>
      obtain ⟨s', t', hs, ht, h'⟩ := assertionForgetsEarlierTransactions s.takeEvent t.takeEvent d h.takeEvent.mem
        h.latch h.sink h.policy h.takeEvent.events rfl
      exact ⟨s', t', (step_assert he hn).trans hs, (step_assert he' hn).trans ht, h'⟩
    | false =>
      refine ⟨_, _, step_deassert he hn, step_deassert he' hn, ?_⟩
      rw [← h.active]
      split
      · exact h.takeEvent.deselect
      · exact h.takeEvent

theorem step_write (h : s.Indistinguishable t) {b : Byte} {rest : List Event} (he : s.events = .drWrite b :: rest) :
    StepsAlike s t := by
  have he' : t.events = .drWrite b :: rest := h.events ▸ he
  have hlatched := h.takeEvent.latchWrite b
  cases ha : s.active with
  | none =>
    have ha' : t.active = none := h.active ▸ ha
    exact ⟨_, _, step_write_unselected he ha, step_write_unselected he' ha', h.takeEvent.setLatch b⟩
  | some d =>
    have ha' : t.active = some d := h.active ▸ ha
    have htr := h.transaction d ha
    by_cases hC : d = .C
    · subst hC
      exact ⟨_, _, step_write_emits he ha, step_write_emits he' ha', hlatched.emit b⟩
    cases hp : (s.dev d).apd with
    | false =>
      have hp' : (t.dev d).apd = false := htr.apd ▸ hp
      exact ⟨_, _, step_write_opens he ha hC hp, step_write_opens he' ha' hC hp',
        hlatched.updateActive (by simpa using ha) (by simpa using h.mem d) (by simpa using htr.opening b hC hp)⟩
    | true =>
      have hp' : (t.dev d).apd = true := htr.apd ▸ hp
      by_cases hm : (s.dev d).mode = .write
      · have hm' : (t.dev d).mode = .write := htr.mode hp ▸ hm
        exact ⟨_, _, step_write_stores he ha hC hp hm, step_write_stores he' ha' hC hp' hm',
          hlatched.updateActive (by simpa using ha) (by simp [h.mem d, htr.write hp hm])
            (by simpa using htr.storeByte b hp hm)⟩
      · have hm' : (t.dev d).mode ≠ .write := htr.mode hp ▸ hm
        exact ⟨_, _, step_write_discards he ha hC hp hm, step_write_discards he' ha' hC hp' hm', hlatched⟩

theorem step_read (h : s.Indistinguishable t) {rest : List Event} (he : s.events = .drRead :: rest) : StepsAlike s t := by
  have he' : t.events = .drRead :: rest := h.events ▸ he
  rcases dispatchRead_cases s with ⟨-, hf⟩ | ⟨d, ha, hm, hp, hsas, -⟩ | ⟨d, ha, hm, hp, hsas, -⟩
  · have hf' : ∀ d, t.active = some d → (t.dev d).mode = .read → (t.dev d).apd = false := by
      intro d ha' hm'
      have ha : s.active = some d := h.active.trans ha'
      have htr := h.transaction d ha
      by_contra hp'
      have hp : (s.dev d).apd = true := by simpa [htr.apd] using hp'
      simp [hf d ha ((htr.mode hp).trans hm')] at hp
    refine ⟨_, _, step_read_fallback he hf, step_read_fallback he' hf', ?_⟩
    rw [← h.latch]
    exact h.takeEvent.returnByte s.latch
  all_goals
    have ha' : t.active = some d := h.active ▸ ha
    have htr := h.transaction d ha
    obtain ⟨hsas', haddr⟩ := htr.read hp hm
    have hp' : (t.dev d).apd = true := htr.apd ▸ hp
    have hm' : (t.dev d).mode = .read := htr.mode hp ▸ hm
    rw [hsas] at hsas'
  · refine ⟨_, _, step_read_status he ha hm hp hsas, step_read_status he' ha' hm' hp' hsas'.symm, ?_⟩
    exact (h.takeEvent.updateActive ha (by simpa using h.mem d) (by simpa using htr.setSas)).returnByte _
  · refine ⟨_, _, step_read_data he ha hm hp hsas, step_read_data he' ha' hm' hp' hsas'.symm, ?_⟩
    have hbyte : t.memRead d (t.dev d).readAddr = s.memRead d (s.dev d).readAddr := by
      simp [State.memRead, h.mem d, haddr]
    rw [hbyte]
    exact (h.takeEvent.updateActive ha (by simpa using h.mem d) (by simpa using htr.advanceRead)).returnByte _

theorem stepsAlike (h : s.Indistinguishable t) : StepsAlike s t := by
  cases he : s.events with
  | nil => exact ⟨s, t, step_idle he, step_idle (h.events ▸ he), h⟩
  | cons e rest =>
    cases e with
    | csEdge n v => exact h.step_edge he
    | drWrite b => exact h.step_write he
    | drRead => exact h.step_read he

end State.Indistinguishable

/-- Settles O42: indistinguishable states step alike, and a step has one outcome. -/
theorem staleTransactionStateNeverReachesTheInterface : Obligations.StaleTransactionStateNeverReachesTheInterface := by
  intro s t s' h hstep
  obtain ⟨s'', t', hs, ht, h'⟩ := h.stepsAlike
  cases hstep.symm.trans hs
  exact ⟨t', ht, h'⟩

/-! ## Runs -/

/-- What a step from `s` to `t` returns to the host. -/
def returnedBytes (s t : State) : List Byte :=
  if s.nextEvent? = some .drRead then t.readOut.toList else []

theorem readTrace_succ {s t : State} (h : step s = .next t) (k : Nat) :
    readTrace (k + 1) s = returnedBytes s t ++ readTrace k t := by
  rw [readTrace, returnedBytes, State.nextEvent?, h]
  rcases s.events with _ | ⟨_ | _ | _, rest⟩ <;> simp

theorem run_succ {s t : State} (h : step s = .next t) (k : Nat) :
    Host.Core.run core (k + 1) s = Host.Core.run core k t := by
  have hcore : core.step s = .next t := h
  simp only [Host.Core.run, hcore]

/-- Settles O43, by induction on the number of steps. -/
theorem indistinguishableStatesReturnTheSameBytes : Obligations.IndistinguishableStatesReturnTheSameBytes := by
  intro k
  induction k with
  | zero => exact fun s t h => ⟨rfl, s, t, rfl, rfl, h.sink⟩
  | succ k ih =>
    intro s t h
    obtain ⟨s', t', hs, ht, h'⟩ := h.stepsAlike
    obtain ⟨htrace, hrun⟩ := ih s' t' h'
    have hreturned : returnedBytes s s' = returnedBytes t t' := by
      rw [returnedBytes, returnedBytes, State.nextEvent?, State.nextEvent?, h.events, h'.readOut]
    rw [readTrace_succ hs, readTrace_succ ht, run_succ hs, run_succ ht, hreturned, htrace]
    exact ⟨rfl, hrun⟩

end Sys2Proof.Machine
end

section
/-! SUPPORT. Events delivered later (R50, R133): taking an event and performing its operation commute with a delivery
behind it. -/

namespace Sys2Proof.Machine

section Deliver
variable (s : State) (later : List Event) (d : DeviceId) (b : Byte)

@[simp] theorem State.deliver_active : (s.deliver later).active = s.active := rfl
@[simp] theorem State.deliver_latch : (s.deliver later).latch = s.latch := rfl
@[simp] theorem State.deliver_dev : (s.deliver later).dev d = s.dev d := by cases d <;> rfl
@[simp] theorem State.deliver_context : (s.deliver later).context = s.context := by simp [State.context]
@[simp] theorem State.deliver_memRead (a : Byte) : (s.deliver later).memRead d a = s.memRead d a := by
  simp [State.memRead]

@[simp] theorem State.deliver_setActive (a : Option DeviceId) :
    (s.deliver later).setActive a = (s.setActive a).deliver later := rfl
@[simp] theorem State.deliver_setLatch : (s.deliver later).setLatch b = (s.setLatch b).deliver later := rfl
@[simp] theorem State.deliver_emit : (s.deliver later).emit b = (s.emit b).deliver later := rfl
@[simp] theorem State.deliver_returnByte : (s.deliver later).returnByte b = (s.returnByte b).deliver later := rfl

@[simp] theorem State.deliver_updateDev (f : Device → Device) :
    (s.deliver later).updateDev d f = (s.updateDev d f).deliver later := by
  cases d <;> rfl

@[simp] theorem State.deliver_latchWrite : (s.deliver later).latchWrite b = (s.latchWrite b).deliver later := by
  rw [State.latchWrite, State.latchWrite, apply_ite (State.deliver · later)]
  rfl

@[simp] theorem State.deliver_storeData : (s.deliver later).storeData d b = (s.storeData d b).deliver later := by
  simp [State.storeData_eq_updateDev]

@[simp] theorem State.deliver_loadData : (s.deliver later).loadData d = (s.loadData d).deliver later := by
  simp [State.loadData]

theorem State.deliver_takeEvent {s : State} (h : s.events ≠ []) :
    (s.deliver later).takeEvent = s.takeEvent.deliver later := by
  simp [State.deliver, State.takeEvent, List.tail_append_of_ne_nil h]

end Deliver

/-- No operation looks at the queue: each of its parts commutes with a delivery behind. -/
theorem exec_deliver {i : Instr} {u v : State} (later : List Event) (h : exec i u = .next v) :
    exec i (u.deliver later) = .next (v.deliver later) := by
  cases i <;> cases h <;> refine congrArg Host.Outcome.next ?_
  case csDeassert d => exact (apply_ite (State.deliver · later) (u.active = some d) (u.setActive none) u).symm
  all_goals simp

theorem step_events_eq_tail {s t : State} (h : step s = .next t) : t.events = s.events.tail := by
  rcases step_cases h with ⟨he, rfl⟩ | ⟨n, v, rest, he, hedge⟩ | ⟨b, rest, he, hwrite⟩ | ⟨rest, he, hread⟩
  · simp [he]
  · rcases hedge with ⟨d, -, -, rfl⟩ | ⟨d, -, -, -, rfl⟩ | rfl <;> simp
  · rcases hwrite with ⟨-, rfl⟩ | ⟨d, -, -, -, rfl⟩ | ⟨d, -, -, -, -, rfl⟩ | ⟨d, -, -, -, -, rfl⟩ | ⟨-, rfl⟩ <;> simp
  · rcases hread with ⟨-, rfl⟩ | ⟨d, -, -, -, -, rfl⟩ | ⟨d, -, -, -, -, rfl⟩ <;> simp

/-- Settles O9: the oldest event and its context are the same with more events behind it. -/
theorem laterEventsDoNotAffectAStep : Obligations.LaterEventsDoNotAffectAStep := by
  intro s t later hne h
  refine ⟨?_, step_events_eq_tail h⟩
  obtain ⟨e, rest, he⟩ := List.exists_cons_of_ne_nil hne
  have he' : (s.deliver later).events = e :: (rest ++ later) := congrArg (· ++ later) he
  rw [step_event he] at h
  rw [step_event he', State.deliver_context, State.deliver_takeEvent later hne]
  exact exec_deliver later h

end Sys2Proof.Machine
end

section
/-! SUPPORT. Runs of data bytes (R42, R110): what a run of writes leaves in a register file, and the run of steps that makes
it. -/

namespace Sys2Proof.Machine

/-! ## One register file -/

theorem addr_succ (a : Byte) (n : Nat) : a + BitVec.ofNat 8 (n + 1) = a + 1#8 + BitVec.ofNat 8 n := by
  rw [Nat.add_comm, BitVec.ofNat_add, BitVec.add_assoc]

/-- A run that is shorter than the address space does not come back to the address before its first. -/
theorem addr_ne_of_run_below {n : Nat} (a : Byte) (h : n < 255) : a ≠ a + 1#8 + BitVec.ofNat 8 n := by
  rw [← addr_succ]
  bv_omega

theorem Memory.read_writeRun_other (m : Memory) {a x : Byte} {bs : List Byte}
    (h : ∀ i < bs.length, x ≠ a + BitVec.ofNat 8 i) : (m.writeRun a bs).read x = m.read x := by
  induction bs generalizing m a with
  | nil => rfl
  | cons v rest ih =>
    have hx : x ≠ a := by simpa using h 0 (by simp)
    have hrest : ∀ i < rest.length, x ≠ a + 1#8 + BitVec.ofNat 8 i := fun i hi =>
      addr_succ a i ▸ h (i + 1) (by simpa using hi)
    exact (ih _ hrest).trans (Memory.read_write_other m v hx)

/-- A run of at most 256 bytes does not overwrite its own bytes. -/
theorem Memory.read_writeRun (m : Memory) (a : Byte) {bs : List Byte} (hlen : bs.length ≤ 256) {i : Nat}
    (h : i < bs.length) : (m.writeRun a bs).read (a + BitVec.ofNat 8 i) = bs[i] := by
  induction bs generalizing m a i with
  | nil => cases h
  | cons v rest ih =>
    rw [List.length_cons] at hlen h
    cases i with
    | zero =>
      have hrest : ∀ j < rest.length, a ≠ a + 1#8 + BitVec.ofNat 8 j := fun j hj => addr_ne_of_run_below a (by omega)
      simp [Memory.writeRun, Memory.read_writeRun_other _ hrest]
    | succ j =>
      rw [addr_succ]
      exact ih _ _ (by omega) (by omega)

/-! ## The run of steps -/

/-- What a run of stored data bytes does to its Device (R42, R108, R117). -/
def Device.storeRun (bs : List Byte) (dv : Device) : Device :=
  { dv with mem := dv.mem.writeRun dv.writeAddr bs, writeAddr := dv.writeAddr + BitVec.ofNat 8 bs.length }

theorem Device.storeRun_nil (dv : Device) : dv.storeRun [] = dv := by
  simp [Device.storeRun, Memory.writeRun]

theorem Device.storeRun_cons (b : Byte) (bs : List Byte) (dv : Device) :
    dv.storeRun (b :: bs) = (dv.storeByte b).storeRun bs := by
  rw [Device.storeRun, List.length_cons, addr_succ]
  rfl

theorem run_dataBytes {s : State} {d : DeviceId} {bs : List Byte} (he : s.events = bs.map evWr) (hC : d ≠ .C)
    (ha : s.active = some d) (hp : (s.dev d).apd = true) (hm : (s.dev d).mode = .write) :
    ∃ t : State, Host.Core.run core bs.length s = .next t ∧ t.dev d = (s.dev d).storeRun bs ∧
      ∀ e ≠ d, t.dev e = s.dev e := by
  induction bs generalizing s with
  | nil => exact ⟨s, rfl, (Device.storeRun_nil _).symm, fun _ _ => rfl⟩
  | cons b rest ih =>
    have hstep := step_write_stores he ha hC hp hm
    obtain ⟨t, hrun, hd, hothers⟩ := ih (s := (s.takeEvent.latchWrite b).updateDev d (Device.storeByte b))
      (by simp [he]) (by simpa using ha) (by simpa using hp) (by simpa using hm)
    refine ⟨t, (run_succ hstep _).trans hrun, ?_, fun e hne => ?_⟩
    · simpa [Device.storeRun_cons] using hd
    · simpa [State.dev_updateDev_other _ _ hne] using hothers e hne

/-- Settles O46: the run of steps leaves the run of writes. -/
theorem writeRunLandsAtSuccessiveAddresses : Obligations.WriteRunLandsAtSuccessiveAddresses := by
  intro s d bs hC ha hp hm hlen
  have hdev (e : DeviceId) : ({ s with events := bs.map evWr } : State).dev e = s.dev e := by cases e <;> rfl
  obtain ⟨t, hrun, hd, hothers⟩ := run_dataBytes (s := { s with events := bs.map evWr }) rfl hC ha
    (by rwa [hdev]) (by rwa [hdev])
  simp only [hdev] at hd hothers
  refine ⟨t, by rw [Claims.afterEvents, List.length_map]; exact hrun, fun i h => ?_, fun e x hx => ?_, ?_⟩
  · rw [State.memRead, hd]
    exact Memory.read_writeRun _ _ hlen h
  · by_cases he : e = d
    · subst he
      rw [State.memRead, hd]
      exact Memory.read_writeRun_other _ (hx rfl)
    · rw [State.memRead, hothers e he, State.memRead]
  · rw [hd]
    rfl

end Sys2Proof.Machine
end

section
/-! SUPPORT. Whole transactions (R51, R75): what a write transaction leaves and what a read transaction returns, for Device A
and Device B alike. -/

namespace Sys2Proof.Machine

/-! ## The returned bytes, event by event -/

theorem readTrace_silent {s t : State} {e : Event} {rest : List Event} (he : s.events = e :: rest) (hne : e ≠ .drRead)
    (h : step s = .next t) (k : Nat) : readTrace (k + 1) s = readTrace k t := by
  simp [readTrace_succ h, returnedBytes, State.nextEvent?, he, hne]

theorem readTrace_read {s t : State} {rest : List Event} {v : Byte} (he : s.events = evRd :: rest)
    (h : step s = .next t) (hv : t.readOut = some v) (k : Nat) : readTrace (k + 1) s = v :: readTrace k t := by
  simp [readTrace_succ h, returnedBytes, State.nextEvent?, he, evRd, hv]

/-! ## Transactions -/

section Transactions
variable {s : State} {d : DeviceId} {op a b : Byte} {rest : List Event}

/-- A selection and an opcode open a transaction, whatever the Device kept of earlier ones (R80, R29). -/
theorem readTrace_open (hC : d ≠ .C) (he : s.events = evSel d :: evWr op :: rest) :
    ∃ t, (∀ k, readTrace (k + 2) s = readTrace k t) ∧ t.events = rest ∧ t.active = some d ∧
      t.dev d = openingOf d op (s.dev d).clearFlags := by
  have hsel := step_assert he (deviceFor_lineIdOf d)
  set u := (s.takeEvent.setActive (some d)).updateDev d Device.clearFlags with hu
  have heu : u.events = evWr op :: rest := by simp [hu, he]
  have hop := step_write_opens heu (d := d) (by simp [hu]) hC (by simp [hu])
  exact ⟨_, fun k => (readTrace_silent he nofun hsel _).trans (readTrace_silent heu nofun hop k), by simp [heu],
    by simp [hu], by simp [hu]⟩

/-- A write transaction of one byte returns nothing and leaves the byte at its address. -/
theorem readTrace_writeTransaction (hC : d ≠ .C) (hop : ∀ dv, openingOf d op dv = dv.openWrite a)
    (he : s.events = evSel d :: evWr op :: evWr b :: evDesel d :: rest) :
    ∃ t, (∀ k, readTrace (k + 4) s = readTrace k t) ∧ t.events = rest ∧ t.memRead d a = b := by
  obtain ⟨u, htrace, heu, hau, hdev⟩ := readTrace_open hC he
  rw [hop] at hdev
  have hstore := step_write_stores heu hau hC (by simp [hdev]) (by simp [hdev])
  set v := (u.takeEvent.latchWrite b).updateDev d (Device.storeByte b) with hv
  have hev : v.events = evDesel d :: rest := by simp [hv, heu]
  have hav : v.active = some d := by simpa [hv] using hau
  have hdesel := step_deassert hev (deviceFor_lineIdOf d)
  rw [if_pos hav] at hdesel
  refine ⟨v.takeEvent.setActive none, fun k => ?_, by simp [hev], by simp [State.memRead, hv, hdev]⟩
  rw [htrace, readTrace_silent heu nofun hstore, readTrace_silent hev nofun hdesel]

/-- A read transaction of one byte returns the status byte (R95) and the byte at its address (R96). -/
theorem readTrace_readTransaction (hC : d ≠ .C) (hop : ∀ dv, openingOf d op dv = dv.openRead a)
    (he : s.events = [evSel d, evWr op, evRd, evRd, evDesel d]) : readTrace 5 s = [0x00#8, s.memRead d a] := by
  obtain ⟨u, htrace, heu, hau, hdev⟩ := readTrace_open hC he
  rw [hop] at hdev
  have hstatus := step_read_status heu hau (by simp [hdev]) (by simp [hdev]) (by simp [hdev])
  set v := (u.takeEvent.updateDev d Device.setSas).returnByte Config.statusByte with hv
  have hev : v.events = [evRd, evDesel d] := by simp [hv, heu]
  have hdata := step_read_data hev (d := d) (by simpa [hv] using hau) (by simp [hv, hdev]) (by simp [hv, hdev])
    (by simp [hv])
  set w := (v.takeEvent.updateDev d Device.advanceRead).returnByte (v.memRead d (v.dev d).readAddr) with hw
  have hew : w.events = [evDesel d] := by simp [hw, hev]
  have hbyte : w.readOut = some (s.memRead d a) := by simp [hw, hv, hdev, State.memRead]
  rw [htrace, readTrace_read heu hstatus rfl, readTrace_read hev hdata hbyte,
    readTrace_silent hew nofun (step_deassert hew (deviceFor_lineIdOf d))]
  rfl

/-- A byte written in one transaction is read back in the next one. -/
theorem readTrace_write_then_read {opW opR : Byte} (hC : d ≠ .C) (hw : ∀ dv, openingOf d opW dv = dv.openWrite a)
    (hr : ∀ dv, openingOf d opR dv = dv.openRead a)
    (he : s.events = [evSel d, evWr opW, evWr b, evDesel d] ++ [evSel d, evWr opR, evRd, evRd, evDesel d]) :
    readTrace 9 s = [0x00#8, b] := by
  obtain ⟨t, htrace, het, hbyte⟩ := readTrace_writeTransaction hC hw he
  rw [htrace, readTrace_readTransaction hC hr het, hbyte]

end Transactions

/-! ## The opcodes of the pseudo-operations (R65, R67, R75) -/

theorem radioWriteOpcode_toNat {r : Byte} (h : r.toNat < 0x20) : (0x20#8 ||| r).toNat = 0x20 + r.toNat :=
  (Nat.two_pow_add_eq_or_of_lt (i := 5) h 1).symm

theorem radioWriteAddr_writeOpcode {r : Byte} (h : r.toNat < 0x20) : radioWriteAddr (0x20#8 ||| r) = r := by
  apply BitVec.eq_of_toNat_eq
  calc (radioWriteAddr (0x20#8 ||| r)).toNat
    _ = (0x20#8 ||| r).toNat % 2 ^ 5 := Nat.and_two_pow_sub_one_eq_mod _ 5
    _ = r.toNat := by rw [radioWriteOpcode_toNat h]; omega

theorem sensorWriteOpcode_toNat (a : Byte) : (a &&& 0x7F#8).toNat = a.toNat % 0x80 :=
  Nat.and_two_pow_sub_one_eq_mod _ 7

theorem sensorWriteAddr_writeOpcode {a : Byte} (h : 0x80 ≤ a.toNat) : sensorWriteAddr (a &&& 0x7F#8) = a := by
  apply BitVec.eq_of_toNat_eq
  calc (sensorWriteAddr (a &&& 0x7F#8)).toNat
    _ = 0x80 ||| a.toNat % 0x80 := by rw [← sensorWriteOpcode_toNat, Nat.or_comm]; rfl
    _ = 0x80 + a.toNat % 0x80 := (Nat.two_pow_add_eq_or_of_lt (i := 7) (Nat.mod_lt _ (by decide)) 1).symm
    _ = a.toNat := by omega

theorem openingOf_radio_write {r : Byte} (h : r.toNat < 0x20) (dv : Device) :
    openingOf .A (0x20#8 ||| r) dv = dv.openWrite r := by
  have hop := radioWriteOpcode_toNat h
  rw [openingOf, if_neg (by omega), if_pos (by omega), radioWriteAddr_writeOpcode h]

theorem openingOf_sensor_read {a : Byte} (h : 0x80 ≤ a.toNat) (dv : Device) : openingOf .B a dv = dv.openRead a :=
  if_pos ((getLsbD_seven a).trans (decide_eq_true h))

theorem openingOf_sensor_write {a : Byte} (h : 0x80 ≤ a.toNat) (dv : Device) :
    openingOf .B (a &&& 0x7F#8) dv = dv.openWrite a := by
  have hop := sensorWriteOpcode_toNat a
  rw [openingOf, getLsbD_seven, if_neg (by simp only [decide_eq_true_eq]; omega), sensorWriteAddr_writeOpcode h]

/-- Settles O47: both families' pseudo-operations are a write transaction and a read transaction at one address. -/
theorem byteWrittenIsReadBackInALaterTransaction : Obligations.ByteWrittenIsReadBackInALaterTransaction := by
  intro s a b
  refine ⟨fun h => ?_, fun h => ?_⟩
  · exact readTrace_write_then_read (d := .A) nofun (openingOf_radio_write h) (fun dv => if_pos h) rfl
  · exact readTrace_write_then_read (d := .B) nofun (openingOf_sensor_write h) (openingOf_sensor_read h) rfl

end Sys2Proof.Machine
end

section
/-! SUPPORT. The dispatch read forwards, one equation per row of the dispatch tables (R63 to R71), and what an operation has
to do with the event and the context it is dispatched from. -/

namespace Sys2Proof

/-! ## One equation per row of the dispatch tables -/

theorem dispatchEdge_lineIdOf (d : DeviceId) (v : Bool) :
    dispatchEdge (lineIdOf d) v = if v then .csAssert d else .csDeassert d := by
  simp [dispatchEdge]

theorem dispatchEdge_unknown {n : Byte} (h : 3 ≤ n.toNat) (v : Bool) : dispatchEdge n v = .csUnknown n v := by
  simp [dispatchEdge, deviceFor_eq_none.mpr h]

section RadioOpcode
variable {b : Byte}

theorem decodeRadioOpcode_read (h : b.toNat < 0x20) : decodeRadioOpcode b = .aRregCmd b :=
  if_pos h

theorem decodeRadioOpcode_write (h : 0x20 ≤ b.toNat) (h' : b.toNat < 0x40) : decodeRadioOpcode b = .aWregCmd b := by
  rw [decodeRadioOpcode, if_neg (by omega), if_pos h']

theorem decodeRadioOpcode_ignoreLow (h : 0x40 ≤ b.toNat) (h' : b.toNat < 0x80) : decodeRadioOpcode b = .aIgnCmdLo b := by
  rw [decodeRadioOpcode, if_neg (by omega), if_neg (by omega), if_pos h']

theorem decodeRadioOpcode_ignoreHigh (h : 0x80 ≤ b.toNat) : decodeRadioOpcode b = .aIgnCmdHi b := by
  rw [decodeRadioOpcode, if_neg (by omega), if_neg (by omega), if_neg (by omega)]

end RadioOpcode

/-- The four ranges of family A's opcode byte (R64). -/
theorem radioOpcode_ranges (b : Byte) :
    b.toNat < 0x20 ∨ (0x20 ≤ b.toNat ∧ b.toNat < 0x40) ∨ (0x40 ≤ b.toNat ∧ b.toNat < 0x80) ∨ 0x80 ≤ b.toNat := by
  omega

/-- A mode stores data bytes or discards them (R25, R70). -/
theorem Mode.stores_or_discards (m : Mode) : m = .write ∨ m = .read ∨ m = .ignore := by
  cases m <;> simp

section Selected
variable {sel : Selection} (b : Byte)

theorem dispatchWrite_radioOpcode (hd : sel.dev = .A) (ha : sel.apd = false) :
    dispatchWrite (some sel) b = decodeRadioOpcode b := by
  simp [dispatchWrite, hd, ha]

theorem dispatchWrite_radioStore (hd : sel.dev = .A) (ha : sel.apd = true) (hm : sel.mode = .write) :
    dispatchWrite (some sel) b = .aDataWr b := by
  simp [dispatchWrite, hd, ha, hm]

theorem dispatchWrite_radioDiscard (hd : sel.dev = .A) (ha : sel.apd = true)
    (hm : sel.mode = .read ∨ sel.mode = .ignore) : dispatchWrite (some sel) b = .aDataDiscard b := by
  rcases hm with hm | hm <;> simp [dispatchWrite, hd, ha, hm]

theorem dispatchWrite_sensorOpcode (hd : sel.dev = .B) (ha : sel.apd = false) :
    dispatchWrite (some sel) b = if 0x80 ≤ b.toNat then .bRregCmd b else .bWregCmd b := by
  simp [dispatchWrite, hd, ha, decodeSensorOpcode_eq]

theorem dispatchWrite_sensorStore (hd : sel.dev = .B) (ha : sel.apd = true) (hm : sel.mode = .write) :
    dispatchWrite (some sel) b = .bDataWr b := by
  simp [dispatchWrite, hd, ha, hm]

theorem dispatchWrite_sensorDiscard (hd : sel.dev = .B) (ha : sel.apd = true)
    (hm : sel.mode = .read ∨ sel.mode = .ignore) : dispatchWrite (some sel) b = .bDataDiscard b := by
  rcases hm with hm | hm <;> simp [dispatchWrite, hd, ha, hm]

theorem dispatchWrite_passthrough (hd : sel.dev = .C) : dispatchWrite (some sel) b = .cChar b := by
  simp [dispatchWrite, hd]

theorem dispatchRead_notReading (h : sel.mode = .read → sel.apd = false) : dispatchRead (some sel) = .rdFallback := by
  cases hm : sel.mode <;> simp [dispatchRead, hm, h]

theorem dispatchRead_reading (hm : sel.mode = .read) (ha : sel.apd = true) :
    dispatchRead (some sel) = if sel.sas then .rdData sel.dev else .rdStatus sel.dev := by
  simp [dispatchRead, hm, ha]

end Selected

/-! ## The operation a context has an event perform -/

/-- An operation is one the opcode table has an event perform in a context: its operand is in the row's range, the row's
context holds, and the event is the one that encodes it. -/
structure Performs (c : Context) (e : Event) (i : Instr) : Prop where
  wellFormed : i.wellFormed = true
  inContext : i.inContext c = true
  encodes : encodeEvent i = e

theorem dispatchEdge_performs (c : Context) (n : Byte) (v : Bool) : Performs c (.csEdge n v) (dispatchEdge n v) := by
  cases h : deviceFor n with
  | none =>
    have hn : 3 ≤ n.toNat := deviceFor_eq_none.mp h
    rw [dispatchEdge_unknown hn]
    exact ⟨decide_eq_true hn, rfl, rfl⟩
  | some d =>
    obtain rfl := deviceFor_eq_some.mp h
    rw [dispatchEdge_lineIdOf]
    cases v <;> exact ⟨rfl, rfl, rfl⟩

section Selected
variable {sel : Selection} (b : Byte)

theorem radioOpcode_performs (hd : sel.dev = .A) (ha : sel.apd = false) :
    Performs (some sel) (.drWrite b) (decodeRadioOpcode b) := by
  rcases radioOpcode_ranges b with h | ⟨h, h'⟩ | ⟨h, h'⟩ | h
  · rw [decodeRadioOpcode_read h]
    exact ⟨by simpa [Instr.wellFormed] using h, by simp [Instr.inContext, hd, ha], rfl⟩
  · rw [decodeRadioOpcode_write h h']
    exact ⟨by simpa [Instr.wellFormed] using ⟨h, h'⟩, by simp [Instr.inContext, hd, ha], rfl⟩
  · rw [decodeRadioOpcode_ignoreLow h h']
    exact ⟨by simpa [Instr.wellFormed] using ⟨h, h'⟩, by simp [Instr.inContext, hd, ha], rfl⟩
  · rw [decodeRadioOpcode_ignoreHigh h]
    exact ⟨by simpa [Instr.wellFormed] using h, by simp [Instr.inContext, hd, ha], rfl⟩

theorem radioWrite_performs (hd : sel.dev = .A) : Performs (some sel) (.drWrite b) (dispatchWrite (some sel) b) := by
  cases ha : sel.apd with
  | false =>
    rw [dispatchWrite_radioOpcode b hd ha]
    exact radioOpcode_performs b hd ha
  | true =>
    rcases sel.mode.stores_or_discards with hm | hm
    · rw [dispatchWrite_radioStore b hd ha hm]
      exact ⟨rfl, by simp [Instr.inContext, hd, ha, hm], rfl⟩
    · rw [dispatchWrite_radioDiscard b hd ha hm]
      exact ⟨rfl, by simp [Instr.inContext, hd, ha, hm], rfl⟩

theorem sensorWrite_performs (hd : sel.dev = .B) : Performs (some sel) (.drWrite b) (dispatchWrite (some sel) b) := by
  cases ha : sel.apd with
  | false =>
    rw [dispatchWrite_sensorOpcode b hd ha]
    split
    · next h => exact ⟨decide_eq_true h, by simp [Instr.inContext, hd, ha], rfl⟩
    · next h => exact ⟨decide_eq_true (not_le.mp h), by simp [Instr.inContext, hd, ha], rfl⟩
  | true =>
    rcases sel.mode.stores_or_discards with hm | hm
    · rw [dispatchWrite_sensorStore b hd ha hm]
      exact ⟨rfl, by simp [Instr.inContext, hd, ha, hm], rfl⟩
    · rw [dispatchWrite_sensorDiscard b hd ha hm]
      exact ⟨rfl, by simp [Instr.inContext, hd, ha, hm], rfl⟩

end Selected

theorem read_performs (sel : Selection) : Performs (some sel) .drRead (dispatchRead (some sel)) := by
  by_cases h : sel.mode = .read → sel.apd = false
  · rw [dispatchRead_notReading h]
    exact ⟨rfl, by cases hm : sel.mode <;> simp [Instr.inContext, hm, h], rfl⟩
  · obtain ⟨hm, ha⟩ : sel.mode = .read ∧ sel.apd = true := by simpa using h
    rw [dispatchRead_reading hm ha]
    cases hs : sel.sas <;> exact ⟨rfl, by simp [Instr.inContext, hm, ha, hs], rfl⟩

/-- What is dispatched is performed by its event in its context (R73: every event has its operation). -/
theorem dispatch_performs (c : Context) (e : Event) : Performs c e (dispatch c e) := by
  cases e with
  | csEdge n v => exact dispatchEdge_performs c n v
  | drWrite b =>
    cases c with
    | none => exact ⟨rfl, rfl, rfl⟩
    | some sel =>
      cases hd : sel.dev with
      | A => exact radioWrite_performs b hd
      | B => exact sensorWrite_performs b hd
      | C =>
        rw [dispatch, dispatchWrite_passthrough b hd]
        exact ⟨rfl, by simp [Instr.inContext, hd], rfl⟩
  | drRead =>
    cases c with
    | none => exact ⟨rfl, rfl, rfl⟩
    | some sel => exact read_performs sel

/-- While no Device is active, five operations are performed, and each is dispatched from its event. -/
theorem dispatch_encodeEvent_none {i : Instr} (hwf : i.wellFormed = true) (hc : i.inContext none = true) :
    dispatch none (encodeEvent i) = i := by
  cases i with
  | csAssert d => exact dispatchEdge_lineIdOf d true
  | csDeassert d => exact dispatchEdge_lineIdOf d false
  | csUnknown n v => exact dispatchEdge_unknown (of_decide_eq_true hwf) v
  | wrNosel b => rfl
  | rdFallback => rfl
  | _ => cases hc

/-- While a Device is active, an operation that its context admits is dispatched from its event. -/
theorem dispatch_encodeEvent_some {i : Instr} {sel : Selection} (hwf : i.wellFormed = true)
    (hc : i.inContext (some sel) = true) : dispatch (some sel) (encodeEvent i) = i := by
  cases i with
    simp only [Instr.wellFormed, Instr.inContext, Bool.and_eq_true, Bool.or_eq_true, beq_iff_eq, Bool.not_eq_true',
      decide_eq_true_eq, Option.isNone_some, Bool.false_eq_true] at hwf hc <;> simp only [dispatch, encodeEvent]
  | csAssert d => exact dispatchEdge_lineIdOf d true
  | csDeassert d => exact dispatchEdge_lineIdOf d false
  | csUnknown n v => exact dispatchEdge_unknown hwf v
  | aRregCmd b =>
    obtain ⟨hd, ha⟩ := hc
    rw [dispatchWrite_radioOpcode b hd ha, decodeRadioOpcode_read hwf]
  | aWregCmd b =>
    obtain ⟨hd, ha⟩ := hc
    rw [dispatchWrite_radioOpcode b hd ha, decodeRadioOpcode_write hwf.left hwf.right]
  | aIgnCmdLo b =>
    obtain ⟨hd, ha⟩ := hc
    rw [dispatchWrite_radioOpcode b hd ha, decodeRadioOpcode_ignoreLow hwf.left hwf.right]
  | aIgnCmdHi b =>
    obtain ⟨hd, ha⟩ := hc
    rw [dispatchWrite_radioOpcode b hd ha, decodeRadioOpcode_ignoreHigh hwf]
  | aDataWr b =>
    obtain ⟨⟨hd, ha⟩, hm⟩ := hc
    exact dispatchWrite_radioStore b hd ha hm
  | aDataDiscard b =>
    obtain ⟨⟨hd, ha⟩, hm⟩ := hc
    exact dispatchWrite_radioDiscard b hd ha hm
  | bRregCmd b =>
    obtain ⟨hd, ha⟩ := hc
    rw [dispatchWrite_sensorOpcode b hd ha, if_pos hwf]
  | bWregCmd b =>
    obtain ⟨hd, ha⟩ := hc
    rw [dispatchWrite_sensorOpcode b hd ha, if_neg (not_le.mpr hwf)]
  | bDataWr b =>
    obtain ⟨⟨hd, ha⟩, hm⟩ := hc
    exact dispatchWrite_sensorStore b hd ha hm
  | bDataDiscard b =>
    obtain ⟨⟨hd, ha⟩, hm⟩ := hc
    exact dispatchWrite_sensorDiscard b hd ha hm
  | cChar b => exact dispatchWrite_passthrough b hc
  | rdFallback => exact dispatchRead_notReading fun hm => by simpa [hm] using hc
  | rdStatus d =>
    obtain ⟨⟨⟨rfl, hm⟩, ha⟩, hs⟩ := hc
    rw [dispatchRead_reading hm ha, hs]
    rfl
  | rdData d =>
    obtain ⟨⟨⟨rfl, hm⟩, ha⟩, hs⟩ := hc
    rw [dispatchRead_reading hm ha, hs]
    rfl

/-- An event is dispatched to exactly the operation it performs in the context. -/
theorem dispatch_eq_iff {c : Context} {e : Event} {i : Instr} : dispatch c e = i ↔ Performs c e i := by
  constructor
  · rintro rfl
    exact dispatch_performs c e
  · rintro ⟨hwf, hc, rfl⟩
    cases c with
    | none => exact dispatch_encodeEvent_none hwf hc
    | some sel => exact dispatch_encodeEvent_some hwf hc

/-! ## From bytes to the operation -/

/-- The first layer accepts only an event's own bytes, so no two strings of bytes stand for one event. -/
theorem bytes_of_decodeEvent {bytes : List Byte} {e : Event} (h : decodeEvent bytes = .ok e) : e.bytes = bytes := by
  match bytes with
  | [] => cases h; rfl
  | [data] => cases h; rfl
  | [n, hi] =>
    simp only [decodeEvent] at h
    split at h
    · next hv => cases h; rw [hv]; rfl
    · split at h
      · next hv => cases h; rw [hv]; rfl
      · cases h
  | _ :: _ :: _ :: _ => cases h

/-- The two layers of the decoder together: the bytes are those of an event, and the event performs the operation. -/
theorem decode_eq_ok_iff {c : Context} {bytes : List Byte} {i : Instr} :
    decode c bytes = .ok i ↔ ∃ e : Event, e.bytes = bytes ∧ Performs c e i := by
  constructor
  · intro h
    unfold decode at h
    split at h
    · next e he => cases h; exact ⟨e, bytes_of_decodeEvent he, dispatch_performs c e⟩
    · cases h
  · rintro ⟨e, rfl, he⟩
    rw [decode_bytes, dispatch_eq_iff.mpr he]

/-! ## Family A's opcode bits (R64) -/

theorem radioTopBits_eq_iff (b : Byte) (m : BitVec 3) : b.extractLsb' 5 3 = m ↔ b.toNat / 32 = m.toNat := by
  rw [← BitVec.toNat_inj, BitVec.extractLsb'_toNat, Nat.shiftRight_eq_div_pow]
  omega

theorem radioTopTwoBits_eq_iff (b : Byte) (m : BitVec 2) : b.extractLsb' 6 2 = m ↔ b.toNat / 64 = m.toNat := by
  rw [← BitVec.toNat_inj, BitVec.extractLsb'_toNat, Nat.shiftRight_eq_div_pow]
  omega

end Sys2Proof
end

section
/-! SUPPORT. The opcode table against the dispatch (R61): the context leaves the rows of one entry of the dispatch tables, and
of these the event's word picks one, since their masks split the bytes into disjoint ranges. -/

namespace Sys2Proof

/-! ## The rows a context leaves, and those a word picks of them -/

/-- A row of the opcode table without its format and context. -/
structure Encoding where
  mask     : BitVec 9
  bits     : BitVec 9
  mnemonic : String

/-- The rows of one format whose context holds. -/
def encodingsIn (c : Context) (k : EventKind) : List Encoding :=
  (opcodeTable.filter fun r => r.format == k && r.context.admits c).map fun r => ⟨r.mask, r.bits, r.mnemonic⟩

/-- The mnemonics of the rows whose match is the masked word. -/
def namesOf (w : BitVec 9) (rows : List Encoding) : List String :=
  (rows.filter fun r => w &&& r.mask == r.bits).map Encoding.mnemonic

/-- The rows that match an event, found in the two stages. -/
theorem mnemonics_matching (c : Context) (e : Event) :
    (opcodeTable.filter fun r => r.matchesEvent c e).map TableRow.mnemonic = namesOf e.word (encodingsIn c e.kind) := by
  simp only [namesOf, encodingsIn, List.filter_map, List.map_map, List.filter_filter]
  congr 2
  funext r
  simp only [TableRow.matchesEvent, Function.comp_apply]
  cases r.format == e.kind <;> simp

/-- A row with an empty mask takes every word. -/
theorem namesOf_maskless (w : BitVec 9) (name : String) : namesOf w [⟨0#9, 0#9, name⟩] = [name] := by
  simp [namesOf]

theorem namesOf_append (w : BitVec 9) (rows rows' : List Encoding) :
    namesOf w (rows ++ rows') = namesOf w rows ++ namesOf w rows' := by
  simp [namesOf]

/-! ## Masks as ranges of bytes -/

/-- A row that takes the words whose bits `low` to 7 are `top`: `2 ^ low` bytes, from `top * 2 ^ low` up. -/
structure ByteRange where
  low  : Nat
  top  : Nat
  name : String

namespace ByteRange

/-- The range as a row of the table. -/
def encoding (r : ByteRange) : Encoding :=
  ⟨BitVec.ofNat 9 (2 ^ 8 - 2 ^ r.low), BitVec.ofNat 9 (r.top * 2 ^ r.low), r.name⟩

/-- Its lowest byte and its mask are within the table's nine bits. -/
def Fits (r : ByteRange) : Prop :=
  r.low ≤ 8 ∧ r.top * 2 ^ r.low < 2 ^ 9

theorem toNat_and_mask (w : BitVec 9) {k : Nat} (hk : k ≤ 8) :
    (w &&& BitVec.ofNat 9 (2 ^ 8 - 2 ^ k)).toNat = w.toNat % 2 ^ 8 / 2 ^ k * 2 ^ k := by
  have hmask : (BitVec.ofNat 9 (2 ^ 8 - 2 ^ k)).toNat = (2 ^ (8 - k) - 1) <<< k := by
    interval_cases k <;> rfl
  rw [BitVec.toNat_and, hmask, ← Nat.shiftRight_eq_div_pow, ← Nat.shiftLeft_eq]
  refine Nat.eq_of_testBit_eq fun i => ?_
  by_cases hi : k ≤ i
  · have hlow : (i - k < 8 - k) = (i < 8) := by rw [eq_iff_iff]; omega
    simp [hi, hlow, Bool.and_comm, -Nat.reducePow]
  · simp [hi]

theorem takes_iff {r : ByteRange} (h : r.Fits) (w : BitVec 9) :
    w &&& r.encoding.mask = r.encoding.bits ↔ w.toNat % 2 ^ 8 / 2 ^ r.low = r.top := by
  obtain ⟨hlow, hbits⟩ := h
  rw [← BitVec.toNat_inj, encoding, toNat_and_mask w hlow, BitVec.toNat_ofNat, Nat.mod_eq_of_lt hbits,
    Nat.mul_left_inj (by positivity)]

theorem namesOf_encodings (w : BitVec 9) {rs : List ByteRange} (h : ∀ r ∈ rs, r.Fits) :
    namesOf w (rs.map encoding) = (rs.filter fun r => w.toNat % 2 ^ 8 / 2 ^ r.low = r.top).map name := by
  rw [namesOf, List.filter_map, List.map_map]
  refine congrArg _ (List.filter_congr fun r hr => ?_)
  simp only [Function.comp_apply, ← takes_iff (h r hr) w, beq_eq_decide]

end ByteRange

/-! ## Writes -/

/-- Family A's opcode rows (R64). -/
def radioRanges : List ByteRange :=
  [⟨5, 0, "A_RREG_CMD"⟩, ⟨5, 1, "A_WREG_CMD"⟩, ⟨6, 1, "A_IGN_CMD_LO"⟩, ⟨7, 1, "A_IGN_CMD_HI"⟩]

/-- Family B's opcode rows (R66). -/
def sensorRanges : List ByteRange :=
  [⟨7, 1, "B_RREG_CMD"⟩, ⟨7, 0, "B_WREG_CMD"⟩]

theorem encodingsIn_radioOpcode (sas : Bool) (mode : Mode) :
    encodingsIn (some ⟨.A, false, sas, mode⟩) .drWrite = radioRanges.map ByteRange.encoding := by
  cases sas <;> cases mode <;> rfl

theorem encodingsIn_sensorOpcode (sas : Bool) (mode : Mode) :
    encodingsIn (some ⟨.B, false, sas, mode⟩) .drWrite = sensorRanges.map ByteRange.encoding := by
  cases sas <;> cases mode <;> rfl

theorem encodingsIn_passthrough (apd sas : Bool) (mode : Mode) :
    encodingsIn (some ⟨.C, apd, sas, mode⟩) .drWrite = [⟨0#9, 0#9, "C_CHAR"⟩] := by
  cases apd <;> cases sas <;> cases mode <;> rfl

theorem toNat_word_drWrite (b : Byte) : (Event.drWrite b).word.toNat % 2 ^ 8 = b.toNat := by
  rw [← BitVec.toNat_setWidth, Event.word]
  simp

theorem namesOf_radioRanges (b : Byte) :
    namesOf (Event.drWrite b).word (radioRanges.map ByteRange.encoding) = [(decodeRadioOpcode b).mnemonic] := by
  rw [ByteRange.namesOf_encodings _ (by simp [radioRanges, ByteRange.Fits]), toNat_word_drWrite]
  have hb : b.toNat < 2 ^ 8 := b.isLt
  rcases radioOpcode_ranges b with h | ⟨h, h'⟩ | ⟨h, h'⟩ | h
  · rw [decodeRadioOpcode_read h]
    grind [radioRanges, Instr.mnemonic]
  · rw [decodeRadioOpcode_write h h']
    grind [radioRanges, Instr.mnemonic]
  · rw [decodeRadioOpcode_ignoreLow h h']
    grind [radioRanges, Instr.mnemonic]
  · rw [decodeRadioOpcode_ignoreHigh h]
    grind [radioRanges, Instr.mnemonic]

theorem namesOf_sensorRanges (b : Byte) :
    namesOf (Event.drWrite b).word (sensorRanges.map ByteRange.encoding) = [(decodeSensorOpcode b).mnemonic] := by
  rw [ByteRange.namesOf_encodings _ (by simp [sensorRanges, ByteRange.Fits]), toNat_word_drWrite, decodeSensorOpcode_eq]
  have hb : b.toNat < 2 ^ 8 := b.isLt
  split
  · grind [sensorRanges, Instr.mnemonic]
  · grind [sensorRanges, Instr.mnemonic]

/-- A data-register write matches the row of the write dispatch (R70). -/
theorem namesOf_write (c : Context) (b : Byte) :
    namesOf (Event.drWrite b).word (encodingsIn c .drWrite) = [(dispatchWrite c b).mnemonic] := by
  match c with
  | none => exact namesOf_maskless _ _
  | some ⟨.A, false, sas, mode⟩ => rw [encodingsIn_radioOpcode, namesOf_radioRanges]; rfl
  | some ⟨.A, true, sas, .write⟩ => cases sas <;> exact namesOf_maskless _ _
  | some ⟨.A, true, sas, .read⟩ => cases sas <;> exact namesOf_maskless _ _
  | some ⟨.A, true, sas, .ignore⟩ => cases sas <;> exact namesOf_maskless _ _
  | some ⟨.B, false, sas, mode⟩ => rw [encodingsIn_sensorOpcode, namesOf_sensorRanges]; rfl
  | some ⟨.B, true, sas, .write⟩ => cases sas <;> exact namesOf_maskless _ _
  | some ⟨.B, true, sas, .read⟩ => cases sas <;> exact namesOf_maskless _ _
  | some ⟨.B, true, sas, .ignore⟩ => cases sas <;> exact namesOf_maskless _ _
  | some ⟨.C, apd, sas, mode⟩ => rw [encodingsIn_passthrough, namesOf_maskless]; rfl

/-! ## Reads -/

/-- A data-register read matches the row of the read dispatch (R71). -/
theorem namesOf_read (c : Context) : namesOf Event.drRead.word (encodingsIn c .drRead) = [(dispatchRead c).mnemonic] := by
  match c with
  | none => exact namesOf_maskless _ _
  | some ⟨d, false, sas, .read⟩ => cases d <;> cases sas <;> exact namesOf_maskless _ _
  | some ⟨d, true, false, .read⟩ => cases d <;> exact namesOf_maskless _ _
  | some ⟨d, true, true, .read⟩ => cases d <;> exact namesOf_maskless _ _
  | some ⟨d, apd, sas, .write⟩ => cases d <;> cases apd <;> cases sas <;> exact namesOf_maskless _ _
  | some ⟨d, apd, sas, .ignore⟩ => cases d <;> cases apd <;> cases sas <;> exact namesOf_maskless _ _

/-! ## Chip-select edges -/

/-- The rows of the three lines: one whole word each. -/
def lineEncodings : List Encoding :=
  [true, false].flatMap fun v => [DeviceId.A, .B, .C].map fun d =>
    ⟨BitVec.allOnes 9, (Event.csEdge (lineIdOf d) v).word, if v then "CS_ASSERT" else "CS_DEASSERT"⟩

/-- The rows of CS_UNKNOWN (R82): the id 3, and the ids from 4 up by the place of their highest bit. -/
def unknownRanges : List ByteRange :=
  ⟨0, 3, "CS_UNKNOWN"⟩ :: (List.range' 2 6).map fun k => ⟨k, 1, "CS_UNKNOWN"⟩

theorem encodingsIn_csEdge (c : Context) :
    encodingsIn c .csEdge = lineEncodings ++ unknownRanges.map ByteRange.encoding := by
  rcases c with _ | ⟨_ | _ | _, _ | _, _ | _, _ | _ | _⟩ <;> rfl

theorem toNat_word_csEdge (n : Byte) (v : Bool) : (Event.csEdge n v).word.toNat % 2 ^ 8 = n.toNat := by
  rw [← BitVec.toNat_setWidth, Event.word, BitVec.setWidth_append]
  simp

/-- The word of an edge holds its line's id. -/
theorem word_csEdge_inj {n m : Byte} {v u : Bool} (h : (Event.csEdge n v).word = (Event.csEdge m u).word) : n = m := by
  rw [← BitVec.toNat_inj, ← toNat_word_csEdge n v, h, toNat_word_csEdge]

/-- No line's row takes the edge of another id. -/
theorem namesOf_lineEncodings_unknown {n : Byte} (hn : 3 ≤ n.toNat) (v : Bool) :
    namesOf (Event.csEdge n v).word lineEncodings = [] := by
  simp only [namesOf, lineEncodings, List.map_eq_nil_iff, List.filter_eq_nil_iff, List.mem_flatMap, List.mem_map]
  rintro _ ⟨u, -, d, -, rfl⟩ hmatch
  have hd : n = lineIdOf d := by
    refine word_csEdge_inj (v := v) (u := u) ?_
    rw [← BitVec.and_allOnes (x := (Event.csEdge n v).word)]
    exact eq_of_beq hmatch
  rw [← deviceFor_eq_none, hd, deviceFor_lineIdOf] at hn
  cases hn

/-- The quotient by a power of two is 1 where the power is that of the highest bit. -/
theorem div_two_pow_eq_one_iff {n : Nat} (hn : n ≠ 0) (k : Nat) : n / 2 ^ k = 1 ↔ n.log2 = k := by
  rw [Nat.log2_eq_iff hn, Nat.div_eq_iff (by positivity)]
  omega

/-- The CS_UNKNOWN rows split the unknown ids: 3 has its own, and the ids from 4 up go by the place of their highest bit. -/
theorem namesOf_unknownRanges {n : Byte} (hn : 3 ≤ n.toNat) (v : Bool) :
    namesOf (Event.csEdge n v).word (unknownRanges.map ByteRange.encoding) = ["CS_UNKNOWN"] := by
  rw [ByteRange.namesOf_encodings _ (by simp [unknownRanges, ByteRange.Fits, List.range']), toNat_word_csEdge]
  have hb : n.toNat < 2 ^ 8 := n.isLt
  by_cases h3 : n.toNat = 3
  · rw [h3]
    rfl
  · have h0 : n.toNat ≠ 0 := by omega
    have hlow : 2 ≤ n.toNat.log2 := (Nat.le_log2 h0).mpr (by omega)
    have hhigh : n.toNat.log2 < 8 := (Nat.log2_lt h0).mpr hb
    rw [unknownRanges, List.filter_cons_of_neg (by simpa using h3), List.filter_map]
    simp only [Function.comp_def, div_two_pow_eq_one_iff h0]
    generalize n.toNat.log2 = l at hlow hhigh
    interval_cases l <;> rfl

/-- A chip-select edge matches the row of its line, or the row of its unknown id, in every context (R80, R81, R82). -/
theorem namesOf_edge (c : Context) (n : Byte) (v : Bool) :
    namesOf (Event.csEdge n v).word (encodingsIn c .csEdge) = [(dispatchEdge n v).mnemonic] := by
  rw [encodingsIn_csEdge]
  cases h : deviceFor n with
  | some d =>
    obtain rfl := deviceFor_eq_some.mp h
    rw [dispatchEdge_lineIdOf]
    cases d <;> cases v <;> rfl
  | none =>
    have hn : 3 ≤ n.toNat := deviceFor_eq_none.mp h
    rw [dispatchEdge_unknown hn, namesOf_append, namesOf_lineEncodings_unknown hn, namesOf_unknownRanges hn]
    rfl

end Sys2Proof
end

section
/-! SUPPORT. The encoding (30_encoding.md): decoder and encoder are inverse, the table agrees with the decoder, words
written out decode, and a step with nothing to decode. -/

namespace Sys2Proof.Machine

/-- Settles O1: the operation's event performs it, so the decoder answers it. -/
theorem decodeOfEncodeGivesBackEveryOperation : Obligations.DecodeOfEncodeGivesBackEveryOperation :=
  fun i _ hwf hc => decode_eq_ok_iff.mpr ⟨encodeEvent i, rfl, hwf, hc, rfl⟩

/-- Settles O2: the context and then the word leave the dispatched row, event kind by event kind. -/
theorem eachEventMatchesExactlyTheRowTheDecoderPicks : Obligations.EachEventMatchesExactlyTheRowTheDecoderPicks := by
  intro c e
  rw [mnemonics_matching]
  cases e with
  | csEdge n v => exact namesOf_edge c n v
  | drWrite b => exact namesOf_write c b
  | drRead => exact namesOf_read c

/-- Settles O3: the decoder answers only what the event of these bytes performs. -/
theorem decodedOperationIsWellFormedInContextAndEncodesBack :
    Obligations.DecodedOperationIsWellFormedInContextAndEncodesBack := by
  intro c bytes i h
  obtain ⟨e, rfl, hwf, hc, rfl⟩ := decode_eq_ok_iff.mp h
  exact ⟨hwf, hc, rfl⟩

/-- Settles O4, word by word. -/
theorem wordsWrittenOutFromTheEncodingsDecode : Obligations.WordsWrittenOutFromTheEncodingsDecode :=
  ⟨rfl, rfl, rfl, rfl, rfl, rfl, rfl, rfl, rfl, rfl⟩

/-- Settles O5: in each of the four ranges the opcode's top bits are the range's. -/
theorem radioOpcodeRangesAgreeWithItsTopBits : Obligations.RadioOpcodeRangesAgreeWithItsTopBits := by
  intro b sas mode
  rw [dispatch, dispatchWrite_radioOpcode b rfl rfl]
  simp only [radioTopBits_eq_iff, radioTopTwoBits_eq_iff, BitVec.reduceToNat]
  rcases radioOpcode_ranges b with h | ⟨h, h'⟩ | ⟨h, h'⟩ | h
  · rw [decodeRadioOpcode_read h, if_pos (by omega)]
  · rw [decodeRadioOpcode_write h h', if_neg (by omega), if_pos (by omega)]
  · rw [decodeRadioOpcode_ignoreLow h h', if_neg (by omega), if_neg (by omega), if_pos (by omega)]
  · rw [decodeRadioOpcode_ignoreHigh h, if_neg (by omega), if_neg (by omega), if_neg (by omega)]

/-- Settles O7. -/
theorem stepWithNoEventChangesNothing : Obligations.StepWithNoEventChangesNothing :=
  fun _ => step_idle

/-- Settles O50: the event of a low level is the assertion of the line's id, that of a high level its deassertion. -/
theorem lowLevelOfALineIsItsAssertion : Obligations.LowLevelOfALineIsItsAssertion :=
  fun d _ => ⟨dispatchEdge_lineIdOf d true, dispatchEdge_lineIdOf d false⟩

end Sys2Proof.Machine
end

section
/-! SUPPORT. The Bus Selector (40_bus_selector.md): the three operations of a chip-select edge, the step that takes one, and
runs of edges. -/

namespace Sys2Proof.Machine

/-! ## The edge operations -/

/-- What a change of one Device leaves alone, it leaves alone in every Device. -/
theorem State.updateDev_keeps {α : Type} (field : Device → α) {f : Device → Device} (hf : ∀ dv, field (f dv) = field dv)
    (s : State) (d e : DeviceId) : field ((s.updateDev d f).dev e) = field (s.dev e) := by
  by_cases h : e = d
  · rw [h, State.dev_updateDev_same, hf]
  · rw [State.dev_updateDev_other _ _ h]

theorem sameBytes_of_mem_eq {s t : State} (h : ∀ e, (t.dev e).mem = (s.dev e).mem) : Claims.SameBytes s t :=
  fun e x => congrArg (Memory.read · x) (h e)

theorem dispatchEdge_known {n : Byte} {d : DeviceId} (h : deviceFor n = some d) (v : Bool) :
    dispatchEdge n v = if v then .csAssert d else .csDeassert d := by
  rw [deviceFor_eq_some.mp h, dispatchEdge_lineIdOf]

/-- Settles O10: the selection and the cleared flags are all of CS_ASSERT, and `apd` clear makes the next byte an opcode. -/
theorem csAssertSelectsTheDeviceAndClearsItsFlags : Obligations.CsAssertSelectsTheDeviceAndClearsItsFlags := by
  intro d s
  refine ⟨fun n c hn => dispatchEdge_known hn true, (s.setActive (some d)).updateDev d Device.clearFlags, rfl, ?_⟩
  set t := (s.setActive (some d)).updateDev d Device.clearFlags with ht
  have hactive : t.active = some d := by simp [ht]
  have hdev : t.dev d = (s.dev d).clearFlags := by simp [ht]
  have hothers : Claims.OthersKept d s t := fun e he => by simp [ht, State.dev_updateDev_other _ _ he]
  have hmem (e : DeviceId) : (t.dev e).mem = (s.dev e).mem := by
    simp [ht, State.updateDev_keeps Device.mem Device.clearFlags_mem]
  have hout : Claims.Outside t s (some d) s.latch s.sink s.readOut := by
    simp [ht, Claims.Outside, Claims.SameInputs]
  rw [State.context_some hactive, hdev]
  refine ⟨hout, rfl, rfl, rfl, rfl, rfl, hothers, sameBytes_of_mem_eq hmem, fun hA b => ?_, fun hB b => ?_⟩
  · exact dispatchWrite_radioOpcode b hA rfl
  · exact (dispatchWrite_sensorOpcode b hB rfl).trans (decodeSensorOpcode_eq b).symm

/-- Settles O11: the line's Device is the active one or not. -/
theorem csDeassertEndsOnlyItsOwnSelection : Obligations.CsDeassertEndsOnlyItsOwnSelection := by
  intro d s
  refine ⟨fun n c hn => dispatchEdge_known hn false, fun ha => ?_, fun ha => congrArg Host.Outcome.next (if_neg ha)⟩
  refine ⟨s.setActive none, congrArg Host.Outcome.next (if_pos ha), ?_, fun e => by simp, ?_⟩
  · exact ⟨rfl, rfl, rfl, rfl, rfl, rfl⟩
  · exact sameBytes_of_mem_eq fun e => by simp

/-- Settles O12: an id of 3 or above names no Device. -/
theorem csUnknownChangesNothing : Obligations.CsUnknownChangesNothing :=
  fun _ v _ _ hn => ⟨dispatchEdge_unknown hn v, rfl⟩

/-! ## The step that takes an edge -/

/-- A step that takes an edge writes the selection alone, or asserts a known line. -/
theorem step_edge_cases {s : State} {n : Byte} {v : Bool} {rest : List Event} (he : s.events = .csEdge n v :: rest) :
    (∃ a, step s = .next (s.takeEvent.setActive a)) ∨
    ∃ d, v = true ∧ deviceFor n = some d ∧
      step s = .next ((s.takeEvent.setActive (some d)).updateDev d Device.clearFlags) := by
  cases hn : deviceFor n with
  | none => exact .inl ⟨s.active, step_unknown_line he hn⟩
  | some d =>
    cases v with
    | true => exact .inr ⟨d, rfl, rfl, step_assert he hn⟩
    | false =>
      by_cases ha : s.active = some d
      · exact .inl ⟨none, (step_deassert he hn).trans (congrArg Host.Outcome.next (if_pos ha))⟩
      · exact .inl ⟨s.active, (step_deassert he hn).trans (congrArg Host.Outcome.next (if_neg ha))⟩

/-- Settles O13: an edge writes the selection alone, or the selection and the flags of the asserted Device. -/
theorem edgesWriteOnlySelectionAndAssertedFlags : Obligations.EdgesWriteOnlySelectionAndAssertedFlags := by
  intro s n v rest he
  rcases step_edge_cases he with ⟨a, hstep⟩ | ⟨d, hv, hn, hstep⟩
  · exact ⟨_, hstep, rfl, rfl, rfl, rfl, sameBytes_of_mem_eq fun e => by simp, fun e => by simp, fun e _ => by simp⟩
  · refine ⟨_, hstep, by simp, by simp, by simp, by simp, sameBytes_of_mem_eq fun e => ?_, fun e => ⟨?_, ?_, ?_⟩,
      fun e hne => ?_⟩
    · simp [State.updateDev_keeps Device.mem Device.clearFlags_mem]
    · simp [State.updateDev_keeps Device.mode Device.clearFlags_mode]
    · simp [State.updateDev_keeps Device.readAddr Device.clearFlags_readAddr]
    · simp [State.updateDev_keeps Device.writeAddr Device.clearFlags_writeAddr]
    · have hed : e ≠ d := fun h => hne ⟨hv, h ▸ hn⟩
      simp [State.dev_updateDev_other _ _ hed]

/-! ## Runs of edges -/

/-- An edge of a known line: the Device whose line it is, and whether it asserts the line. -/
abbrev LineEdge := DeviceId × Bool

/-- The edge as the event the host delivers (R61, R63). -/
def LineEdge.event (l : LineEdge) : Event :=
  .csEdge (lineIdOf l.1) l.2

/-- The selection that an edge of a known line leaves (R80, R81). -/
def selectionAfter (a : Option DeviceId) (l : LineEdge) : Option DeviceId :=
  if l.2 then some l.1 else if a = some l.1 then none else a

/-- A step that takes a known line's edge, as far as a run of edges needs it. -/
theorem step_lineEdge {s : State} {l : LineEdge} {rest : List Event} (he : s.events = l.event :: rest) :
    ∃ t, step s = .next t ∧ t.events = rest ∧ t.active = selectionAfter s.active l ∧
      ∀ d, l ≠ (d, true) → t.dev d = s.dev d := by
  obtain ⟨t, hstep, -, -, -, -, -, -, hkept⟩ := edgesWriteOnlySelectionAndAssertedFlags s _ _ rest he
  obtain ⟨e, v⟩ := l
  refine ⟨t, hstep, by simp [step_events_eq_tail hstep, he], ?_, fun d hd => hkept d fun ⟨hv, hn⟩ => hd ?_⟩
  · cases v with
    | true =>
      cases hstep.symm.trans (step_assert he (deviceFor_lineIdOf e))
      simp [selectionAfter]
    | false =>
      cases hstep.symm.trans (step_deassert he (deviceFor_lineIdOf e))
      by_cases ha : s.active = some e <;> simp [selectionAfter, ha]
  · exact Prod.ext (by simpa using hn) hv

/-- A run of edges folds the selection, and leaves alone every Device whose line it does not assert. -/
theorem run_lineEdges {s : State} {ls : List LineEdge} (he : s.events = ls.map LineEdge.event) :
    ∃ t : State, Host.Core.run core ls.length s = .next t ∧ t.active = ls.foldl selectionAfter s.active ∧
      ∀ d, (d, true) ∉ ls → t.dev d = s.dev d := by
  induction ls generalizing s with
  | nil => exact ⟨s, rfl, rfl, fun _ _ => rfl⟩
  | cons l rest ih =>
    obtain ⟨u, hstep, heu, hau, hkept⟩ := step_lineEdge he
    obtain ⟨t, hrun, hat, hdev⟩ := ih heu
    refine ⟨t, (run_succ hstep _).trans hrun, by rw [hat, hau, List.foldl_cons], fun d hd => ?_⟩
    rw [List.mem_cons, not_or] at hd
    rw [hdev d hd.2, hkept d (Ne.symm hd.1)]

theorem afterEvents_lineEdges {s : State} {d : DeviceId} {a : Option DeviceId} {ls : List LineEdge}
    (hd : (d, true) ∉ ls) (ha : ls.foldl selectionAfter s.active = a) :
    ∃ t, Claims.afterEvents s (ls.map LineEdge.event) = .next t ∧ t.active = a ∧ t.dev d = s.dev d := by
  obtain ⟨t, hrun, hactive, hdev⟩ := run_lineEdges (s := { s with events := ls.map LineEdge.event }) rfl
  refine ⟨t, by rw [Claims.afterEvents, List.length_map]; exact hrun, hactive.trans ha, (hdev d hd).trans ?_⟩
  cases d <;> rfl

/-- Settles O14: none of the four runs asserts line d, and the fold over its edges is the selection each leaves. -/
theorem lastAssertedLineWinsAndNothingIsRestored : Obligations.LastAssertedLineWinsAndNothingIsRestored := by
  intro s d e hde _
  refine ⟨afterEvents_lineEdges (ls := [(e, true)]) ?_ ?_, afterEvents_lineEdges (ls := [(e, true), (e, false)]) ?_ ?_,
    afterEvents_lineEdges (ls := [(e, true), (d, false)]) ?_ ?_,
    afterEvents_lineEdges (ls := [(e, true), (e, false), (d, false)]) ?_ ?_⟩
  all_goals simp [selectionAfter, hde, hde.symm]

end Sys2Proof.Machine
end

section
/-! SUPPORT. The Register Intercept (41_register_intercept.md): the operations of its own, the steps that take a write or a
read, and whole Read transactions. -/

namespace Sys2Proof.Machine

/-! ## The operations -/

/-- Settles O16: the backing cell takes the byte. -/
theorem writeWithNoDeviceSetsOnlyTheBackingCell : Obligations.WriteWithNoDeviceSetsOnlyTheBackingCell := by
  intro b s
  refine ⟨rfl, s.setLatch b, rfl, ?_, fun e => by simp, sameBytes_of_mem_eq fun e => by simp⟩
  exact ⟨rfl, rfl, rfl, rfl, rfl, rfl⟩

/-- Settles O17: the status read sets `sas` and writes nothing else, and with `sas` set the dispatch answers RD_DATA. -/
theorem firstReadReturnsTheStatusByte : Obligations.FirstReadReturnsTheStatusByte := by
  intro d s
  refine ⟨rfl, (s.updateDev d Device.setSas).returnByte Config.statusByte, rfl, ?_⟩
  set t := (s.updateDev d Device.setSas).returnByte Config.statusByte with ht
  have hout : Claims.Outside t s s.active s.latch s.sink (some 0x00#8) := by
    simp [ht, Claims.Outside, Claims.SameInputs, Config.statusByte]
  have hdev : t.dev d = (s.dev d).setSas := by simp [ht]
  have hothers : Claims.OthersKept d s t := fun e he => by simp [ht, State.dev_updateDev_other _ _ he]
  have hmem (e : DeviceId) : (t.dev e).mem = (s.dev e).mem := by
    simp [ht, State.updateDev_keeps Device.mem Device.setSas_mem]
  refine ⟨hout, hdev, hothers, sameBytes_of_mem_eq hmem, fun ha hp hm => ?_⟩
  rw [State.context_some (s := t) (d := d) (by simpa [ht] using ha), hdev]
  exact dispatchRead_reading hm hp

/-- Settles O18: the data read advances `read_addr` and writes nothing else. -/
theorem laterReadReturnsTheByteAtTheReadAddress : Obligations.LaterReadReturnsTheByteAtTheReadAddress := by
  intro d s
  refine ⟨rfl, s.loadData d, rfl, ?_, ?_, ?_⟩
  · simp [Claims.Outside, Claims.SameInputs]
  · simp [State.loadData_dev, inc8]
  · rw [State.loadData_dev]
    refine ⟨rfl, rfl, rfl, rfl, fun e he => State.loadData_dev_other s he, sameBytes_of_mem_eq fun e => ?_⟩
    simp [State.loadData, State.updateDev_keeps Device.mem Device.advanceRead_mem]

/-- Settles O19: the dispatch reaches a data or status read only in Read mode with the address phase done. -/
theorem otherReadsReturnTheBackingCellAndChangeNothing : Obligations.OtherReadsReturnTheBackingCellAndChangeNothing := by
  refine ⟨rfl, fun d apd sas mode hm => ?_, fun d sas => ?_, fun s => ?_⟩
  · exact dispatchRead_notReading fun h => absurd h hm
  · exact dispatchRead_notReading (sel := ⟨d, false, sas, .read⟩) fun _ => rfl
  · refine ⟨s.returnByte s.latch, rfl, ?_, fun e => by simp, sameBytes_of_mem_eq fun e => by simp⟩
    exact ⟨rfl, rfl, rfl, rfl, rfl, rfl⟩

/-! ## The step that takes a write -/

/-- A step that takes a write updates the backing cell by the policy (R91); beside that it changes only the active Device,
or with Device C active only the sink (R93). -/
theorem step_write_cases {s : State} {b : Byte} {rest : List Event} (he : s.events = .drWrite b :: rest) :
    (s.active ≠ some .C ∧ step s = .next (s.takeEvent.latchWrite b)) ∨
    (∃ d f, s.active = some d ∧ d ≠ .C ∧ step s = .next ((s.takeEvent.latchWrite b).updateDev d f)) ∨
    (s.active = some .C ∧ step s = .next ((s.takeEvent.latchWrite b).emit b)) := by
  cases ha : s.active with
  | none =>
    have hlatch : s.takeEvent.latchWrite b = s.takeEvent.setLatch b := if_pos (.inr ha)
    exact .inl ⟨nofun, hlatch ▸ step_write_unselected he ha⟩
  | some d =>
    by_cases hC : d = .C
    · subst hC
      exact .inr (.inr ⟨rfl, step_write_emits he ha⟩)
    cases hp : (s.dev d).apd with
    | false => exact .inr (.inl ⟨d, _, rfl, hC, step_write_opens he ha hC hp⟩)
    | true =>
      by_cases hm : (s.dev d).mode = .write
      · exact .inr (.inl ⟨d, _, rfl, hC, step_write_stores he ha hC hp hm⟩)
      · exact .inl ⟨by simpa using hC, step_write_discards he ha hC hp hm⟩

/-- Settles O20: the latch update comes before the decoder, and nothing after it writes the backing cell. -/
theorem everyWriteUpdatesTheBackingCellByPolicy : Obligations.EveryWriteUpdatesTheBackingCellByPolicy := by
  intro s b rest he
  have hlatch : (s.takeEvent.latchWrite b).latch = Claims.latchAfter s b := State.latchWrite_latch _ b
  have halways (h : s.latchWritePolicy = .always) : Claims.latchAfter s b = b := if_pos (.inl h)
  rcases step_write_cases he with ⟨-, hstep⟩ | ⟨d, f, -, -, hstep⟩ | ⟨-, hstep⟩
  all_goals exact ⟨_, hstep, by simp [hlatch], by simp, by simp, fun h => by simp [hlatch, halways h]⟩

/-- Settles O22: a write changes one active Device other than C, or the sink, or neither. -/
theorem writesTouchOnlyTheActiveDevice : Obligations.WritesTouchOnlyTheActiveDevice := by
  intro s b rest he
  rcases step_write_cases he with ⟨ha, hstep⟩ | ⟨d, f, ha, hC, hstep⟩ | ⟨ha, hstep⟩
  · exact ⟨_, hstep, fun e _ => by simp, by simp, by simp [ha]⟩
  · have hother {e : DeviceId} (h : e ≠ d) : ((s.takeEvent.latchWrite b).updateDev d f).dev e = s.dev e := by
      simp [State.dev_updateDev_other _ _ h]
    exact ⟨_, hstep, fun e hne => hother fun h => hne (h ▸ ha), hother hC.symm, by simp [ha, hC]⟩
  · exact ⟨_, hstep, fun e _ => by simp, by simp, by simp [ha]⟩

/-! ## The step that takes a read -/

/-- A step that takes a read returns a byte, and changes at most `sas` and `read_addr` of one Device (R94, R99). -/
theorem step_read_cases {s : State} {rest : List Event} (he : s.events = .drRead :: rest) :
    (∃ v, step s = .next (s.takeEvent.returnByte v)) ∨
    ∃ d f v, (f = Device.setSas ∨ f = Device.advanceRead) ∧ step s = .next ((s.takeEvent.updateDev d f).returnByte v) := by
  rcases dispatchRead_cases s with ⟨-, hf⟩ | ⟨d, ha, hm, hp, hs, -⟩ | ⟨d, ha, hm, hp, hs, -⟩
  · exact .inl ⟨_, step_read_fallback he hf⟩
  · exact .inr ⟨d, _, _, .inl rfl, step_read_status he ha hm hp hs⟩
  · exact .inr ⟨d, _, _, .inr rfl, step_read_data he ha hm hp hs⟩

/-- The fields of a Device that no read writes. -/
def Device.keptByReads (dv : Device) : Memory × Bool × Mode × Byte :=
  (dv.mem, dv.apd, dv.mode, dv.writeAddr)

theorem step_read_frame {s : State} {rest : List Event} (he : s.events = .drRead :: rest) :
    ∃ t v, step s = .next t ∧ Claims.Outside t { s with events := rest } s.active s.latch s.sink (some v) ∧
      ∀ e, (t.dev e).keptByReads = (s.dev e).keptByReads := by
  rcases step_read_cases he with ⟨v, hstep⟩ | ⟨d, f, v, hf, hstep⟩
  · exact ⟨_, v, hstep, by simp [Claims.Outside, Claims.SameInputs, he], fun e => by simp⟩
  · have hkept (dv : Device) : (f dv).keptByReads = dv.keptByReads := by rcases hf with rfl | rfl <;> rfl
    exact ⟨_, v, hstep, by simp [Claims.Outside, Claims.SameInputs, he],
      fun e => by simp [State.updateDev_keeps Device.keptByReads hkept]⟩

/-- Settles O21: the fields a read may write are not among those named. -/
theorem readsNeverWriteBackAndAlwaysReturnAByte : Obligations.ReadsNeverWriteBackAndAlwaysReturnAByte := by
  intro s rest he
  obtain ⟨t, v, hstep, hout, hkept⟩ := step_read_frame he
  simp only [Device.keptByReads, Prod.mk.injEq] at hkept
  exact ⟨t, v, hstep, hout, sameBytes_of_mem_eq fun e => (hkept e).1, fun e => (hkept e).2⟩

/-! ## Read transactions -/

/-- The byte that the `i`-th of the coming reads returns in a Read transaction: the status byte first if it has not been sent
(R95), then the bytes from `read_addr` on (R96). -/
def Device.readByte (dv : Device) (i : Nat) : Byte :=
  if dv.sas then dv.mem.read (dv.readAddr + BitVec.ofNat 8 i)
  else if i = 0 then Config.statusByte
  else dv.mem.read (dv.readAddr + BitVec.ofNat 8 (i - 1))

theorem Device.readByte_setSas {dv : Device} (hs : dv.sas = false) (i : Nat) :
    dv.setSas.readByte i = dv.readByte (i + 1) := by
  simp [Device.readByte, hs]

theorem Device.readByte_advanceRead {dv : Device} (hs : dv.sas = true) (i : Nat) :
    dv.advanceRead.readByte i = dv.readByte (i + 1) := by
  simp [Device.readByte, hs, inc8, addr_succ dv.readAddr i]

/-- A Read transaction of Device `d` whose address phase is done. -/
structure State.Reading (s : State) (d : DeviceId) : Prop where
  active : s.active = some d
  apd : (s.dev d).apd = true
  mode : (s.dev d).mode = .read

namespace State.Reading
variable {s : State} {d : DeviceId} {rest : List Event}

theorem of_eq {t : State} (h : s.Reading d) (ha : t.active = s.active) (hp : (t.dev d).apd = (s.dev d).apd)
    (hm : (t.dev d).mode = (s.dev d).mode) : t.Reading d :=
  ⟨ha.trans h.active, hp.trans h.apd, hm.trans h.mode⟩

/-- A read returns the first of the coming bytes and leaves the others to come. -/
theorem step_read (h : s.Reading d) (he : s.events = evRd :: rest) :
    ∃ t, step s = .next t ∧ t.readOut = some ((s.dev d).readByte 0) ∧ t.Reading d ∧
      ∀ i, (t.dev d).readByte i = (s.dev d).readByte (i + 1) := by
  cases hs : (s.dev d).sas with
  | false =>
    exact ⟨_, step_read_status he h.active h.mode h.apd hs, by simp [Device.readByte, hs],
      h.of_eq (by simp) (by simp) (by simp), by simpa using Device.readByte_setSas hs⟩
  | true =>
    exact ⟨_, step_read_data he h.active h.mode h.apd hs, by simp [Device.readByte, hs, State.memRead],
      h.of_eq (by simp) (by simp) (by simp), by simpa using Device.readByte_advanceRead hs⟩

/-- A write in between is discarded: it leaves the transaction alone (R109, R118). -/
theorem step_write (h : s.Reading d) (hC : d ≠ .C) {b : Byte} (he : s.events = evWr b :: rest) :
    ∃ t, step s = .next t ∧ t.Reading d ∧ t.dev d = s.dev d := by
  exact ⟨_, step_write_discards he h.active hC h.apd (by simp [h.mode]), h.of_eq (by simp) (by simp) (by simp), by simp⟩

/-- The reads of a Read transaction return the coming bytes in order, whatever is written between them. -/
theorem readTrace_eq (h : s.Reading d) (hC : d ≠ .C) {es : List Event} (he : s.events = es)
    (hes : ∀ e ∈ es, e = .drRead ∨ ∃ b, e = .drWrite b) :
    readTrace es.length s = (List.range (es.count .drRead)).map (s.dev d).readByte := by
  induction es generalizing s with
  | nil => rfl
  | cons e rest ih =>
    obtain ⟨hhead, hrest⟩ := List.forall_mem_cons.mp hes
    rcases hhead with rfl | ⟨b, rfl⟩
    · obtain ⟨t, hstep, hout, ht, hnext⟩ := h.step_read he
      have htail := ih ht (by simp [step_events_eq_tail hstep, he]) hrest
      rw [List.length_cons, readTrace_read he hstep hout, htail, List.count_cons_self, List.range_succ_eq_map]
      simp [hnext]
    · obtain ⟨t, hstep, ht, hdev⟩ := h.step_write hC he
      have htail := ih ht (by simp [step_events_eq_tail hstep, he]) hrest
      rw [List.length_cons, readTrace_silent he nofun hstep, htail, hdev, List.count_cons_of_ne (by simp)]

end State.Reading

/-- Before the status byte is sent the first `n` coming bytes are it and the bytes from `read_addr` on. -/
theorem Device.map_readByte_range {dv : Device} (hs : dv.sas = false) {n k : Nat} (hn : n ≤ k) :
    (List.range n).map dv.readByte =
      (Config.statusByte :: (List.range k).map fun i => dv.mem.read (dv.readAddr + BitVec.ofNat 8 i)).take n := by
  cases n with
  | zero => rfl
  | succ n =>
    rw [List.take_succ_cons, ← List.map_take, List.take_range, Nat.min_eq_left (by omega), List.range_succ_eq_map]
    simp [Device.readByte, hs]

/-- Settles O45: the coming bytes of a transaction whose status byte has not been sent. -/
theorem readTransactionReturnsStatusThenConsecutiveBytes :
    Obligations.ReadTransactionReturnsStatusThenConsecutiveBytes := by
  intro s d hC ha hp hs hm hes
  have hreading : s.Reading d := ⟨ha, hp, hm⟩
  exact (hreading.readTrace_eq hC rfl hes).trans (Device.map_readByte_range hs List.count_le_length)

end Sys2Proof.Machine
end

section
/-! SUPPORT. Decoder family A (42_decoder_radio.md) and the data bytes of families A and B: what the latch update followed by
a change of one Device leaves alone, the address forms, and the operations. -/

namespace Sys2Proof.Machine

/-! ## The latch update and a change of one Device -/

section Frame
variable {s : State} {b : Byte} {d : DeviceId} {f : Device → Device}

@[simp] theorem State.latchWrite_memRead (x : Byte) : (s.latchWrite b).memRead d x = s.memRead d x := by
  simp [State.memRead]

theorem latchWrite_outside : Claims.Outside (s.latchWrite b) s s.active (Claims.latchAfter s b) s.sink s.readOut := by
  simp [Claims.Outside, Claims.SameInputs, Claims.latchAfter, State.latchWrite_latch]

theorem latchWrite_updateDev_outside :
    Claims.Outside ((s.latchWrite b).updateDev d f) s s.active (Claims.latchAfter s b) s.sink s.readOut := by
  simpa [Claims.Outside, Claims.SameInputs] using latchWrite_outside (s := s) (b := b)

theorem latchWrite_updateDev_othersKept : Claims.OthersKept d s ((s.latchWrite b).updateDev d f) := fun e he => by
  simp [State.dev_updateDev_other _ _ he]

theorem latchWrite_updateDev_sameBytes (hf : ∀ dv, (f dv).mem = dv.mem) :
    Claims.SameBytes s ((s.latchWrite b).updateDev d f) :=
  sameBytes_of_mem_eq fun e => by simp [State.updateDev_keeps Device.mem hf]

end Frame

/-! ## The address forms (R47, R65) -/

theorem inc8_toNat (a : Byte) : (inc8 a).toNat = (a.toNat + 1) % 256 :=
  BitVec.toNat_add a 1#8

theorem radioRegister_toNat (b : Byte) : (Claims.radioRegister b).toNat = b.toNat % 0x20 := by
  simp only [Claims.radioRegister, BitVec.toNat_setWidth, BitVec.extractLsb'_toNat, Nat.shiftRight_zero]
  omega

theorem radioRegister_readOpcode {b : Byte} (h : b.toNat < 0x20) : Claims.radioRegister b = b := by
  apply BitVec.eq_of_toNat_eq
  rw [radioRegister_toNat, Nat.mod_eq_of_lt h]

theorem radioWriteAddr_eq_radioRegister (b : Byte) : radioWriteAddr b = Claims.radioRegister b := by
  apply BitVec.eq_of_toNat_eq
  rw [radioRegister_toNat]
  exact Nat.and_two_pow_sub_one_eq_mod _ 5

/-! ## Stored data bytes -/

/-- Of all bytes only the one at the Device's write address changes (R108, R117). -/
theorem State.memRead_storeData (s : State) (d e : DeviceId) (b x : Byte) :
    (s.storeData d b).memRead e x = if e = d ∧ x = (s.dev d).writeAddr then b else s.memRead e x := by
  rw [← State.memRead_memWrite, State.storeData, State.memRead, State.updateDev_keeps Device.mem Device.advanceWrite_mem,
    State.memRead]

/-- Settles O27: both families' operation is the latch update and then a stored data byte. -/
theorem dataByteLandsAtTheWriteAddress : Obligations.DataByteLandsAtTheWriteAddress := by
  intro b s d i hi
  have hdispatch (sas : Bool) : dispatch (some ⟨d, true, sas, .write⟩) (.drWrite b) = i := by
    rw [dispatch]
    rcases hi with ⟨rfl, rfl⟩ | ⟨rfl, rfl⟩
    · exact dispatchWrite_radioStore b rfl rfl rfl
    · exact dispatchWrite_sensorStore b rfl rfl rfl
  have hexec : exec i s = .next ((s.latchWrite b).storeData d b) := by
    rcases hi with ⟨rfl, rfl⟩ | ⟨rfl, rfl⟩ <;> rfl
  have hbytes (e : DeviceId) (x : Byte) : ((s.latchWrite b).storeData d b).memRead e x =
      if e = d ∧ x = (s.dev d).writeAddr then b else s.memRead e x := by
    simp [State.memRead_storeData]
  refine ⟨hdispatch, _, hexec, ?_, (hbytes _ _).trans (if_pos ⟨rfl, rfl⟩), fun e x h => (hbytes e x).trans (if_neg h), ?_⟩
  all_goals rw [State.storeData_eq_updateDev]
  · exact latchWrite_updateDev_outside
  · rw [State.dev_updateDev_same, State.latchWrite_dev]
    exact ⟨inc8_toNat _, rfl, rfl, rfl, rfl, latchWrite_updateDev_othersKept⟩

/-! ## Opcodes and discarded bytes of family A -/

theorem dispatch_radioOpcode (b : Byte) (sas : Bool) (mode : Mode) :
    dispatch (some ⟨.A, false, sas, mode⟩) (.drWrite b) = decodeRadioOpcode b := by
  rw [dispatch, dispatchWrite_radioOpcode b rfl rfl]

/-- Settles O23: a Read opcode is its own register number. -/
theorem radioReadOpcodeOpensAReadAtItsRegister : Obligations.RadioReadOpcodeOpensAReadAtItsRegister := by
  intro b s h
  refine ⟨fun sas mode => (dispatch_radioOpcode b sas mode).trans (decodeRadioOpcode_read h), _, rfl,
    latchWrite_updateDev_outside, ?_⟩
  rw [State.dev_updateDev_same, State.latchWrite_dev, radioRegister_readOpcode h]
  exact ⟨rfl, rfl, rfl, rfl, rfl, rfl, latchWrite_updateDev_othersKept,
    latchWrite_updateDev_sameBytes fun dv => dv.openRead_mem _⟩

/-- Settles O24: the register number of a Write opcode is its low five bits. -/
theorem radioWriteOpcodeOpensAWriteAtItsRegister : Obligations.RadioWriteOpcodeOpensAWriteAtItsRegister := by
  intro b s h h'
  have haddr : (radioWriteAddr b).toNat = b.toNat - 0x20 := by
    rw [radioWriteAddr_eq_radioRegister, radioRegister_toNat]
    omega
  refine ⟨fun sas mode => (dispatch_radioOpcode b sas mode).trans (decodeRadioOpcode_write h h'), _, rfl,
    latchWrite_updateDev_outside, ?_⟩
  rw [State.dev_updateDev_same, State.latchWrite_dev]
  exact ⟨rfl, haddr, radioWriteAddr_eq_radioRegister b, rfl, rfl, rfl, latchWrite_updateDev_othersKept,
    latchWrite_updateDev_sameBytes fun dv => dv.openWrite_mem _⟩

/-- Settles O25: both operations open an Ignore transaction, in whose context writes are discarded and reads fall back. -/
theorem radioIgnoreOpcodeOpensAnIgnoreTransaction : Obligations.RadioIgnoreOpcodeOpensAnIgnoreTransaction := by
  intro b s h
  refine ⟨fun sas mode => ?_, fun i hi => ?_⟩
  · rw [dispatch_radioOpcode]
    split
    · next hlow => exact decodeRadioOpcode_ignoreLow h hlow
    · next hhigh => exact decodeRadioOpcode_ignoreHigh (not_lt.mp hhigh)
  · have hexec : exec i s = .next ((s.latchWrite b).updateDev .A Device.openIgnore) := by
      rcases hi with rfl | rfl <;> rfl
    refine ⟨_, hexec, latchWrite_updateDev_outside, ?_, latchWrite_updateDev_othersKept,
      latchWrite_updateDev_sameBytes Device.openIgnore_mem, fun ha => ?_⟩
    · rw [State.dev_updateDev_same, State.latchWrite_dev]
      rfl
    · rw [State.context_some (d := .A) (by simpa using ha), State.dev_updateDev_same, Device.openIgnore_apd,
        Device.openIgnore_mode]
      refine ⟨fun b' => ?_, ?_⟩ <;> rw [dispatch]
      · exact dispatchWrite_radioDiscard b' rfl rfl (.inr rfl)
      · exact dispatchRead_notReading nofun

/-- Settles O26: the latch update is all of A_DATA_DISCARD. -/
theorem radioDiscardsDataOutsideWriteMode : Obligations.RadioDiscardsDataOutsideWriteMode := by
  intro b s
  refine ⟨fun sas mode hm => ?_, s.latchWrite b, rfl, latchWrite_outside, fun e => by simp, fun e x => by simp⟩
  rw [dispatch]
  exact dispatchWrite_radioDiscard b rfl rfl hm

end Sys2Proof.Machine
end

section
/-! SUPPORT. Decoder family B (43_decoder_sensor.md): the Write address, the opcodes and the discarded byte, and where a
transaction starts. -/

namespace Sys2Proof.Machine

/-! ## The opcode byte (R66, R67) -/

theorem dispatch_sensorOpcode (b : Byte) (sas : Bool) (mode : Mode) :
    dispatch (some ⟨.B, false, sas, mode⟩) (.drWrite b) = if 0x80 ≤ b.toNat then .bRregCmd b else .bWregCmd b := by
  rw [dispatch, dispatchWrite_sensorOpcode b rfl rfl]

/-- A Write opcode has bit 7 clear, so setting the bit adds 0x80. -/
theorem sensorWriteAddr_toNat {b : Byte} (h : b.toNat < 0x80) : (sensorWriteAddr b).toNat = b.toNat + 0x80 :=
  calc (sensorWriteAddr b).toNat
    _ = 0x80 ||| b.toNat := Nat.or_comm ..
    _ = 0x80 + b.toNat := (Nat.two_pow_add_eq_or_of_lt (i := 7) h 1).symm
    _ = b.toNat + 0x80 := Nat.add_comm ..

theorem openingOf_sensor_writeOpcode {b : Byte} (h : b.toNat < 0x80) (dv : Device) :
    openingOf .B b dv = dv.openWrite (sensorWriteAddr b) := by
  rw [openingOf, getLsbD_seven, if_neg (by simpa using h)]

/-! ## The operations -/

/-- Settles O28: a Read opcode is its own address. -/
theorem sensorReadOpcodeKeepsTheHighBit : Obligations.SensorReadOpcodeKeepsTheHighBit := by
  intro b s h
  refine ⟨fun sas mode => (dispatch_sensorOpcode b sas mode).trans (if_pos h), _, rfl, latchWrite_updateDev_outside, ?_⟩
  rw [State.dev_updateDev_same, State.latchWrite_dev]
  exact ⟨rfl, rfl, rfl, rfl, rfl, latchWrite_updateDev_othersKept,
    latchWrite_updateDev_sameBytes fun dv => dv.openRead_mem _⟩

/-- Settles O29: the address of a Write opcode is the opcode with bit 7 set. -/
theorem sensorWriteOpcodeForcesTheHighBit : Obligations.SensorWriteOpcodeForcesTheHighBit := by
  intro b s h
  refine ⟨fun sas mode => (dispatch_sensorOpcode b sas mode).trans (if_neg (not_le.mpr h)), _, rfl,
    latchWrite_updateDev_outside, ?_⟩
  rw [State.dev_updateDev_same, State.latchWrite_dev]
  exact ⟨rfl, sensorWriteAddr_toNat h, rfl, rfl, rfl, latchWrite_updateDev_othersKept,
    latchWrite_updateDev_sameBytes fun dv => dv.openWrite_mem _⟩

/-- Settles O30: the latch update is all of B_DATA_DISCARD. -/
theorem sensorDiscardsDataOutsideWriteMode : Obligations.SensorDiscardsDataOutsideWriteMode := by
  intro b s
  refine ⟨fun sas mode hm => ?_, s.latchWrite b, rfl, latchWrite_outside, fun e => by simp, fun e x => by simp⟩
  rw [dispatch]
  exact dispatchWrite_sensorDiscard b rfl rfl hm

/-! ## Where a transaction starts (R119) -/

/-- Settles O31: a Read opcode has bit 7 set and is the address; a Write opcode has it clear and the address gets it. -/
theorem sensorTransactionsStartInTheUpperHalf : Obligations.SensorTransactionsStartInTheUpperHalf := by
  intro s b rest he ha hp
  refine ⟨_, step_write_opens he ha nofun hp, ?_⟩
  rw [State.dev_updateDev_same]
  rcases le_or_gt 0x80 b.toNat with hread | hwrite
  · rw [openingOf_sensor_read hread]
    exact .inl ⟨rfl, hread⟩
  · rw [openingOf_sensor_writeOpcode hwrite]
    have haddr := sensorWriteAddr_toNat hwrite
    exact .inr ⟨rfl, by rw [Device.openWrite_writeAddr]; omega⟩

end Sys2Proof.Machine
end

section
/-! SUPPORT. Decoder family C, the passthrough text Device (44_decoder_passthrough.md): the operation C_CHAR, and the read
while Device C is active. -/

namespace Sys2Proof.Machine

theorem latchWrite_emit_outside (s : State) (b : Byte) :
    Claims.Outside ((s.latchWrite b).emit b) s s.active (Claims.latchAfter s b) (s.sink ++ [b]) s.readOut := by
  simpa [Claims.Outside, Claims.SameInputs] using latchWrite_outside (s := s) (b := b)

theorem passthrough_apd_of_inv {s : State} (h : s.Inv) : (s.dev .C).apd = false := by
  rw [h.passthroughUntouched, Device.created]

/-- Settles O34: Device C's `apd` stays false, and a read does more than fall back only when it is set. -/
theorem readsWhilePassthroughIsActiveFallBack : Obligations.ReadsWhilePassthroughIsActiveFallBack := by
  intro s rest hInv he ha
  have hfallback (d : DeviceId) (hd : s.active = some d) (_ : (s.dev d).mode = .read) : (s.dev d).apd = false := by
    obtain rfl : DeviceId.C = d := Option.some.inj (ha.symm.trans hd)
    exact passthrough_apd_of_inv hInv
  rw [step_read_fallback he hfallback, State.takeEvent, he]
  rfl

/-- Settles O32: the dispatch of a write to Device C asks for no flag or mode, and the operation is the latch update followed
by one byte on the sink. -/
theorem passthroughEmitsEveryByteOnce : Obligations.PassthroughEmitsEveryByteOnce := by
  intro b s
  refine ⟨fun apd sas mode => ?_, (s.latchWrite b).emit b, rfl, latchWrite_emit_outside s b, fun e => by simp,
    sameBytes_of_mem_eq fun e => by simp⟩
  rw [dispatch]
  exact dispatchWrite_passthrough b rfl

end Sys2Proof.Machine
end

section
/-! SUPPORT. Every event completes (R130): no operation has an outcome but a next state. -/

namespace Sys2Proof.Machine

/-- Each arm of `exec` answers `.next`, in whatever context the operation was decoded. -/
theorem exec_completes (i : Instr) (s : State) : Completes (exec i s) := by
  cases i <;> exact ⟨_, rfl⟩

theorem step_completes (s : State) : Completes (step s) := by
  cases he : s.events with
  | nil => exact ⟨s, step_idle he⟩
  | cons e rest =>
    rw [step_event he]
    exact exec_completes _ _

/-- Settles O8: both the step and the operation it performs complete in every state. -/
theorem everyEventCompletesInEveryState : Obligations.EveryEventCompletesInEveryState :=
  fun s e => ⟨step_completes { s with events := [e] }, exec_completes (dispatch s.context e) s⟩

end Sys2Proof.Machine
end

section
/-! SUPPORT. Reset and reselection (70_reset_and_hazards.md): what the Devices and their register files are at reset, and the
opcode that follows a reselection. -/

namespace Sys2Proof.Machine

/-! ## The Devices at reset (R151) -/

/-- The register file a Device starts with: the calibration seed in Device B, nothing listed in the others. -/
def resetMemory : DeviceId → Memory
  | .A => []
  | .B => Memory.seeded
  | .C => []

@[simp] theorem State.resetWith_dev (latchInit : Byte) (policy : LatchWritePolicy) (d : DeviceId) :
    (State.resetWith latchInit policy).dev d = Device.created (resetMemory d) := by
  cases d <;> rfl

@[simp] theorem Device.created_mem (m : Memory) : (Device.created m).mem = m := rfl
@[simp] theorem Device.created_apd (m : Memory) : (Device.created m).apd = false := rfl
@[simp] theorem Device.created_sas (m : Memory) : (Device.created m).sas = false := rfl

theorem State.memRead_resetWith (latchInit : Byte) (policy : LatchWritePolicy) (d : DeviceId) (x : Byte) :
    (State.resetWith latchInit policy).memRead d x = (resetMemory d).read x := by
  rw [State.memRead, State.resetWith_dev, Device.created_mem]

theorem resetMemory_of_ne_B {d : DeviceId} (h : d ≠ .B) : resetMemory d = [] := by
  cases d with
  | A => rfl
  | B => exact absurd rfl h
  | C => rfl

theorem resetMemory_wf (d : DeviceId) : (resetMemory d).wf = true := by
  cases d with
  | A => exact Memory.wf_nil
  | B => exact Memory.wf_seeded
  | C => exact Memory.wf_nil

/-- Settles O39: a created Device has both flags clear, so of the invariant's clauses only the canonical form asks more. -/
theorem resetStateMeetsTheInvariant : Obligations.ResetStateMeetsTheInvariant :=
  { memWf := fun d => by simp [State.reset, resetMemory_wf]
    passthroughUntouched := rfl
    sensorNeverIgnores := by simp [State.reset]
    statusOnlyInRead := fun d => by simp [State.reset] }

/-- Settles O49: outside the Devices field by field, and in each Device as created. -/
theorem resetSelectsNothingAndClearsTransactions : Obligations.ResetSelectsNothingAndClearsTransactions := by
  intro latchInit policy
  refine ⟨rfl, rfl, rfl, fun d => ?_, fun d x hB => ?_⟩
  · rw [State.resetWith_dev]
    exact ⟨rfl, rfl, rfl, rfl, rfl⟩
  · rw [State.memRead_resetWith, resetMemory_of_ne_B hB]
    rfl

/-! ## The calibration seed (R152) -/

/-- The cells a run of bytes writes: each byte with its address. -/
def runCells : Byte → List Byte → List (Byte × Byte)
  | _, [] => []
  | a, v :: rest => (a, v) :: runCells (a + 1#8) rest

/-- The cells of all runs of the seed, in the order startup writes them. -/
def seedCells : List (Byte × Byte) :=
  calibrationSeed.flatMap fun run => runCells run.1 run.2

/-- Cells written one after the other. -/
def Memory.writeCells (m : Memory) (cells : List (Byte × Byte)) : Memory :=
  cells.foldl (fun m cell => m.write cell.1 cell.2) m

theorem Memory.writeRun_eq_writeCells (m : Memory) (a : Byte) (bs : List Byte) :
    m.writeRun a bs = m.writeCells (runCells a bs) := by
  induction bs generalizing m a with
  | nil => rfl
  | cons v rest ih => exact ih (m.write a v) (a + 1#8)

theorem Memory.seeded_eq_writeCells : Memory.seeded = Memory.writeCells [] seedCells := by
  simp only [Memory.seeded, Memory.writeRun_eq_writeCells, Memory.writeCells, seedCells, List.foldl_flatMap]

theorem Memory.read_writeCells_other (m : Memory) {cells : List (Byte × Byte)} {x : Byte} (h : x ∉ cells.map Prod.fst) :
    (m.writeCells cells).read x = m.read x := by
  induction cells generalizing m with
  | nil => rfl
  | cons cell rest ih =>
    rw [List.map_cons, List.mem_cons, not_or] at h
    exact (ih _ h.2).trans (Memory.read_write_other m cell.2 h.1)

/-- Where no address is written twice, every cell keeps its byte. -/
theorem Memory.read_writeCells_of_mem (m : Memory) {cells : List (Byte × Byte)} {p : Byte × Byte}
    (hnodup : (cells.map Prod.fst).Nodup) (hp : p ∈ cells) : (m.writeCells cells).read p.1 = p.2 := by
  induction cells generalizing m with
  | nil => cases hp
  | cons cell rest ih =>
    rw [List.map_cons, List.nodup_cons] at hnodup
    rcases List.mem_cons.mp hp with rfl | hrest
    · exact (Memory.read_writeCells_other _ hnodup.1).trans (Memory.read_write_same m p.1 p.2)
    · exact ih _ hnodup.2 hrest

/-- The two tables of R152 list the same cells: the first in runs, the second in the order of the addresses. -/
theorem seedCells_perm_seedBytes : seedCells.Perm Claims.seedBytes := by decide

theorem seedCells_nodup : (seedCells.map Prod.fst).Nodup := by decide

theorem Memory.read_seeded_of_mem {p : Byte × Byte} (hp : p ∈ Claims.seedBytes) : Memory.seeded.read p.1 = p.2 := by
  rw [Memory.seeded_eq_writeCells]
  exact Memory.read_writeCells_of_mem [] seedCells_nodup (seedCells_perm_seedBytes.mem_iff.mpr hp)

theorem Memory.read_seeded_other {x : Byte} (hx : x ∉ Claims.seedBytes.map Prod.fst) :
    Memory.seeded.read x = Config.memInit := by
  rw [Memory.seeded_eq_writeCells]
  exact Memory.read_writeCells_other [] (mt (seedCells_perm_seedBytes.map Prod.fst).mem_iff.mp hx)

/-- Settles O48: both tables of R152 give Device B the same bytes. -/
theorem resetSeedsTheSensorRegisterFile : Obligations.ResetSeedsTheSensorRegisterFile := by
  intro latchInit policy
  refine ⟨fun p hp => ?_, fun x hx => ?_⟩
  · exact (State.memRead_resetWith ..).trans (Memory.read_seeded_of_mem hp)
  · exact (State.memRead_resetWith ..).trans (Memory.read_seeded_other hx)

/-! ## Reselection (R164) -/

theorem openingOf_radio_mode (b : Byte) (dv : Device) :
    (openingOf .A b dv).mode = if b.toNat < 0x20 then .read else if b.toNat < 0x40 then .write else .ignore := by
  rw [openingOf, apply_ite Device.mode, apply_ite Device.mode]
  rfl

theorem openingOf_sensor_mode (b : Byte) (dv : Device) :
    (openingOf .B b dv).mode = if 0x80 ≤ b.toNat then .read else .write := by
  simp only [openingOf, getLsbD_seven, decide_eq_true_eq, apply_ite Device.mode, Device.openRead_mode, Device.openWrite_mode]

/-- A reselection and one byte: the deassertion touches no Device, the assertion clears the flags, so the byte is an opcode. -/
theorem run_reselect_write {s : State} {d : DeviceId} {b : Byte} (hC : d ≠ .C)
    (he : s.events = [evDesel d, evSel d, evWr b]) :
    ∃ t : State, Host.Core.run core 3 s = .next t ∧ t.active = some d ∧ t.dev d = openingOf d b (s.dev d).clearFlags ∧
      ∀ e, (t.dev e).mem = (s.dev e).mem := by
  obtain ⟨u, hdesel, heu, -, hkept⟩ := step_lineEdge (l := (d, false)) he
  have hu (e : DeviceId) : u.dev e = s.dev e := hkept e (by simp)
  have hsel := step_assert heu (deviceFor_lineIdOf d)
  set v := (u.takeEvent.setActive (some d)).updateDev d Device.clearFlags with hv
  have hdev : v.dev d = (s.dev d).clearFlags := by simp [hv, hu]
  have hev : v.events = [evWr b] := by simp [hv, heu]
  have hwrite := step_write_opens hev (d := d) (by simp [hv]) hC (by simp [hdev])
  refine ⟨_, (run_succ hdesel 2).trans ((run_succ hsel 1).trans (run_succ hwrite 0)), by simp [hv], by simp [hdev],
    fun e => ?_⟩
  simp [State.updateDev_keeps Device.mem (openingOf_mem d b), State.updateDev_keeps Device.mem Device.clearFlags_mem, hv, hu]

/-- Settles O15: what the opcode leaves of a Device with clear flags, and the mode it selects in each family. -/
theorem byteAfterReselectionIsAFreshOpcode : Obligations.ByteAfterReselectionIsAFreshOpcode := by
  intro s d b hC
  have hissued (e : DeviceId) : ({ s with events := [evDesel d, evSel d, evWr b] } : State).dev e = s.dev e := by
    cases e <;> rfl
  obtain ⟨t, hrun, hactive, hdev, hmem⟩ :=
    run_reselect_write (s := { s with events := [evDesel d, evSel d, evWr b] }) hC rfl
  refine ⟨t, hrun, hactive, ?_, ?_, sameBytes_of_mem_eq fun e => (hmem e).trans (by rw [hissued]), ?_, ?_⟩
  · rw [hdev, openingOf_apd b _ hC]
  · rw [hdev, openingOf_sas, Device.clearFlags_sas]
  · rintro rfl
    rw [hdev, openingOf_radio_mode]
  · rintro rfl
    rw [hdev, openingOf_sensor_mode]

end Sys2Proof.Machine
end
